-- ==== Sys2Proof/Word.lean ====
section
/-! DEFINITION. The word and byte types of the engine (spec/00_scope.md rule R5, rule R11) and the four-word block
(spec/00_scope.md section 5, "Block"). Word arithmetic is BitVec's own: addition, subtraction and multiplication modulo 2^32
(spec/40_primitives.md rule R100, rule R101) and the bitwise exclusive or (rule R113). -/

namespace Sys2Proof

/-- Rule R5, rule R11: every word is an unsigned 32-bit integer. -/
abbrev Word := BitVec 32

/-- One byte of a key or of a block. -/
abbrev Byte := BitVec 8

/-- The source's Block: "4-word atomic transform unit", its words named A, B, C, D. -/
structure Block where
  a : Word
  b : Word
  c : Word
  d : Word
  deriving DecidableEq, Repr, Inhabited

/-- Word q of a block (rule R66: A, B, C, D for q = 0, 1, 2, 3). -/
def Block.get (x : Block) : Fin 4 → Word
  | 0 => x.a
  | 1 => x.b
  | 2 => x.c
  | 3 => x.d

/-- The block with word q replaced. -/
def Block.set (x : Block) (q : Fin 4) (v : Word) : Block :=
  match q with
  | 0 => { x with a := v }
  | 1 => { x with b := v }
  | 2 => { x with c := v }
  | 3 => { x with d := v }

/-- The all-zero block. -/
def Block.zero : Block := ⟨0, 0, 0, 0⟩

end Sys2Proof
end

