-- ==== Sys2Proof/Config.lean ====
section
/-! DEFINITION. What a build of the engine fixes (the parameters R_MAX and KEY_BYTES_MAX, the constants P, Q and ID) and the
free values of the model: what the spec leaves unspecified. A free value is opaque: nothing can be proved about which value it is. -/

namespace Sys2Proof

/-- The two OPEN build-time parameters (spec/00_scope.md rule R7, rule R8; spec/92_eei_decisions.md D2, D3). The machine carries
them in its state, so that a statement about every state is a statement about every build. -/
structure Build where
  rMax : Nat
  keyBytesMax : Nat
  deriving DecidableEq, Repr

namespace Build

/-- C_MAX = ceil(KEY_BYTES_MAX / 4), the number of KEY registers and of words of L (rule R8). -/
def cMax (b : Build) : Nat := (b.keyBytesMax + 3) / 4

/-- The number of entries of S and of the ROM, 2·R_MAX+4 (rule R7, rule R33, rule R34). -/
def sLen (b : Build) : Nat := 2 * b.rMax + 4

/-- The reference configuration: R_MAX = 20 and KEY_BYTES_MAX = 32 (rule R7, rule R8). DESIGN CHOICE, log entry 1: the build of the
machine at `State.reset`; the step itself works for every build. -/
def reference : Build := ⟨20, 32⟩

end Build

namespace Config

/-- The magic constant P (rule R9). -/
def P : Word := 0xB7E15163#32

/-- The magic constant Q (rule R9). -/
def Q : Word := 0x9E3779B9#32

/-- lgw = log2(w), the fixed rotation amount of the round (rule R5). -/
def lgw : Nat := 5

/-- The word width w in bits (rule R5). -/
def w : Nat := 32

/-- The value of the ID register (spec/10_state.md rule R22). -/
def idValue : Word := 0x52433601#32

/-- The internal cursors and latched counts whose contents after reset are unspecified (spec/10_state.md rule R38, rule R39, rule R44). -/
inductive Counter where
  | SI | LJ | KN | RI | CL | NL | VL
  deriving DecidableEq, Repr

/-- The internal 32-bit registers whose contents after reset are unspecified (spec/10_state.md rule R36, rule R37, rule R44). -/
inductive WordReg where
  | WA | WB | WC | WD | KA | KB
  deriving DecidableEq, Repr

/-- FREE VALUE (log entry 3): entry i of S after the reset cycle numbered `draw` (rule R44, rule R231: "A model takes them as arbitrary"). -/
opaque resetS (draw i : Nat) : Word

/-- FREE VALUE (log entry 3): entry j of L after the reset cycle numbered `draw` (rule R44, rule R231). -/
opaque resetL (draw j : Nat) : Word

/-- FREE VALUE (log entry 3): an internal word register after the reset cycle numbered `draw` (rule R44, rule R231). -/
opaque resetWord (draw : Nat) (r : WordReg) : Word

/-- FREE VALUE (log entry 3): an internal counter after the reset cycle numbered `draw` (rule R44, rule R231). -/
opaque resetCounter (draw : Nat) (c : Counter) : Nat

/-- FREE VALUE (log entry 3): the latched round count RL after the reset cycle numbered `draw` (rule R44, rule R231). -/
opaque resetRL (draw : Nat) : BitVec 8

/-- FREE VALUE (log entry 4): what a read of an array entry that does not exist gives. The arrays S, L and KEY have no such entry
within the bounds of the rules, and no state that meets `State.Wf` reads one. -/
opaque absentWord (i : Nat) : Word

end Config
end Sys2Proof
end

