-- ==== Sys2Proof/Syntax.lean ====
section
/-! DEFINITION. The syntax of what the host presents: the five commands of the opcode table (`Instr`), one cycle of the input pins
(`Pins`) and the bus access it carries (`Access`), the 40-bit transaction word, and the host assembly notation of
spec/30_encoding.md rule R88 and rule R89. -/

namespace Sys2Proof

/-- The commands of spec/30_encoding.md rule R82, one constructor per row of spec/opcode_table.json. A command carries no immediate
and no register field (rule R86), and CMD[31:4] is ignored (rule R81), so no constructor has an argument. -/
inductive Instr where
  /-- OP 0x0, spec/43_control.md rule R183. -/
  | nop
  /-- OP 0x1, spec/41_key_schedule.md rule R120. -/
  | keygen
  /-- OP 0x2, spec/42_round_function.md rule R150. -/
  | encrypt
  /-- OP 0x3, spec/42_round_function.md rule R157. -/
  | decrypt
  /-- OP 0x4, spec/41_key_schedule.md rule R136. -/
  | clrkey
  deriving DecidableEq, Repr

/-- A word address `bus_addr[8:2]` (spec/20_memory.md rule R60). -/
abbrev Addr := BitVec 7

/-- The bus access of one cycle (spec/20_memory.md rule R62): none, `BusRead(a)` or `BusWrite(a, v)`. -/
inductive Access where
  | idle
  | read (a : Addr)
  | write (a : Addr) (v : Word)
  deriving DecidableEq, Repr

/-- The input pins of one clock cycle (spec/20_memory.md rule R61), the clock itself apart. -/
structure Pins where
  rstN : Bool
  sel : Bool
  we : Bool
  addr : Addr
  wdata : Word
  deriving DecidableEq, Repr

/-- The 40-bit transaction word of spec/30_encoding.md rule R80. -/
abbrev Transaction := BitVec 40

/-- The registers of the host register map, by name (spec/10_state.md rule R21), and the reserved addresses. -/
inductive Reg where
  | id
  | param
  | cmd
  | status
  | irqEn
  | cfg
  | keylen
  | din (q : Fin 4)
  | dout (q : Fin 4)
  | key (k : Nat)
  | reserved
  deriving DecidableEq, Repr

/-- A register operand of the host assembly (rule R88): a register name, or a byte offset written in hex. -/
inductive RegName where
  | id
  | param
  | cmd
  | status
  | irqEn
  | cfg
  | keylen
  | din (q : Fin 4)
  | dout (q : Fin 4)
  | key (k : Nat)
  | offset (o : Nat)
  deriving DecidableEq, Repr

/-- The host assembly of rule R88 and its pseudo-instructions (rule R89). Binding a read value to a name, the claim of `rd … == …`,
labels and `bnz` are the host processor's own and cost no bus cycle; `wait` is a host loop over `rd STATUS`, written here as `poll n`,
the n reads it makes. Rule R89 states no width for the operands of `setkey` and `setblk`: every one is a VALUE of rule R88, a whole
32-bit literal, LEN of `setkey` too, because it stands as VALUE in its expansion `wr KEYLEN, LEN` (DEDUCED, the model's reading, log entry 18). -/
inductive HostOp where
  | wr (r : RegName) (v : Word)
  | rd (r : RegName)
  | idle (n : Nat)
  | reset
  | cmd (i : Instr)
  | poll (n : Nat)
  | clrdone
  | clrerr
  | clrall
  | setblk (x : Block)
  | getblk
  | setkey (len : Word) (ks : List Word)
  deriving DecidableEq, Repr

end Sys2Proof
end

