-- ==== Sys2Proof/WellFormed.lean ====
section
/-! DEFINITION. What is well formed: a build, a command, a transaction word and a line of host assembly. Each check is a Bool. -/

namespace Sys2Proof

/-- The legal values of the build parameters (spec/00_scope.md rule R7, rule R8). -/
def Build.wellFormed (b : Build) : Bool :=
  decide (20 ≤ b.rMax) && decide (b.rMax ≤ 255) && decide (16 ≤ b.keyBytesMax) && decide (b.keyBytesMax ≤ 255)

/-- Every command is well formed: it has no operand field (spec/30_encoding.md rule R86) and no reserved bit is checked (rule R84). -/
def Instr.wellFormed (i : Instr) : Bool :=
  match i with
  | .nop => true
  | .keygen => true
  | .encrypt => true
  | .decrypt => true
  | .clrkey => true

/-- A transaction word is well formed if it is a write, or a read whose DATA field is 0 (spec/30_encoding.md rule R80; that other
reads are ill formed is DESIGN CHOICE, log entry 17). -/
def Transaction.wellFormed (t : Transaction) : Bool :=
  t.extractLsb' 39 1 == 1#1 || t.extractLsb' 0 32 == 0#32

/-- A register operand is well formed in a build if it names a register of that build, or a word-aligned byte offset inside the
512-byte space (spec/10_state.md rule R21, spec/20_memory.md rule R60, rule R64). -/
def RegName.wellFormed (b : Build) : RegName → Bool
  | .key k => decide (k < b.cMax)
  | .offset o => decide (o < 512) && decide (o % 4 = 0)
  | _ => true

/-- A line of host assembly is well formed in a build if its register operand is, and `setkey` writes at most C_MAX key words (rule R88, rule R89). -/
def HostOp.wellFormed (b : Build) : HostOp → Bool
  | .wr r _ => r.wellFormed b
  | .rd r => r.wellFormed b
  | .setkey _ ks => decide (ks.length ≤ b.cMax)
  | _ => true

end Sys2Proof
end

