-- ==== Sys2Proof/Decode.lean ====
section
/-! DEFINITION. The decoder of the CMD word (spec/30_encoding.md rule R81 to rule R84), the decoders of a cycle's pins, of a transaction
word and of a word address, and after each its encoder, written from the same tables of the spec. -/

namespace Sys2Proof

/-- Why a word is no command or no transaction, by name. -/
inductive DecodeError where
  /-- A CMD word whose OP is 0x5 to 0xF (rule R83). The machine goes on: the write is rejected with BADCMD (spec/60_exceptions.md rule R205). -/
  | reservedOpcode (op : BitVec 4)
  /-- A transaction word with WE = 0 and DATA other than 0 (rule R80 gives DATA = 0 for a read and says nothing of another value:
  refusing it is DESIGN CHOICE, log entry 17). Notation only: no bus cycle carries it. -/
  | readWithData
  deriving DecidableEq, Repr

/-- `OP`, the one field of the command word: CMD_word[3:0] (rule R81). -/
def opField (w : Word) : BitVec 4 := w.extractLsb' 0 4

/-- The command an opcode selects (rule R82), or none for a reserved opcode (rule R83). -/
def decodeOp (op : BitVec 4) : Option Instr :=
  match op.toNat with
  | 0x0 => some .nop
  | 0x1 => some .keygen
  | 0x2 => some .encrypt
  | 0x3 => some .decrypt
  | 0x4 => some .clrkey
  | _ => none

/-- The command decoder: total on every 32-bit word written to CMD; CMD_word[31:4] is not looked at (rule R81, rule R82). -/
def decode (w : Word) : Except DecodeError Instr :=
  match decodeOp (opField w) with
  | some i => .ok i
  | none => .error (.reservedOpcode (opField w))

/-- The opcode of a command (rule R82). -/
def Instr.op : Instr → BitVec 4
  | .nop => 0x0#4
  | .keygen => 0x1#4
  | .encrypt => 0x2#4
  | .decrypt => 0x3#4
  | .clrkey => 0x4#4

/-- The command word of a command with the given ignored bits: `{ignored, OP}` (rule R81). -/
def encodeWith (ignored : BitVec 28) (i : Instr) : Word := ignored ++ i.op

/-- The command word the host assembly writes for a command (rule R89): its ignored bits are 0. -/
def encode (i : Instr) : Word := encodeWith 0#28 i

/-- The host's reading of an opcode-table word: the bits of w below nbits, as a CMD word. -/
def decodeTableWord (nbits w : Nat) : Option Instr :=
  match decode (BitVec.ofNat 32 (w % 2 ^ nbits)) with
  | .ok i => some i
  | .error _ => none

/-- The bus access the pins of a cycle present (spec/20_memory.md rule R61, rule R62). -/
def Pins.access (p : Pins) : Access :=
  if p.sel then (if p.we then .write p.addr p.wdata else .read p.addr) else .idle

/-- The pins of a cycle with `rst_n` = 1 that presents the access; the data pins of an access that carries no data are 0. -/
def Access.pins : Access → Pins
  | .idle => ⟨true, false, false, 0, 0⟩
  | .read a => ⟨true, true, false, a, 0⟩
  | .write a v => ⟨true, true, true, a, v⟩

/-- The access a transaction word stands for (spec/30_encoding.md rule R80): WE = bit 39, ADDR = bits 38:32, DATA = bits 31:0.
The refusal of a read with DATA other than 0 is the model's choice (DESIGN CHOICE, log entry 17). -/
def decodeTransaction (t : Transaction) : Except DecodeError Access :=
  if t.extractLsb' 39 1 = 1#1 then .ok (.write (t.extractLsb' 32 7) (t.extractLsb' 0 32))
  else if t.extractLsb' 0 32 = 0#32 then .ok (.read (t.extractLsb' 32 7))
  else .error .readWithData

/-- The transaction word of an access (rule R80); an idle cycle has none. -/
def encodeTransaction : Access → Option Transaction
  | .idle => none
  | .read a => some (0#1 ++ a ++ 0#32)
  | .write a v => some (1#1 ++ a ++ v)

/-- The register at a word address (spec/10_state.md rule R21, spec/43_control.md rule R180): total over the 128 addresses (spec/20_memory.md rule R77). -/
def decodeAddr (b : Build) (a : Addr) : Reg :=
  match a.toNat with
  | 0x00 => .id
  | 0x01 => .param
  | 0x02 => .cmd
  | 0x03 => .status
  | 0x04 => .irqEn
  | 0x05 => .cfg
  | 0x06 => .keylen
  | 0x08 => .din 0
  | 0x09 => .din 1
  | 0x0A => .din 2
  | 0x0B => .din 3
  | 0x0C => .dout 0
  | 0x0D => .dout 1
  | 0x0E => .dout 2
  | 0x0F => .dout 3
  | n => if 0x40 ≤ n ∧ n - 0x40 < b.cMax then .key (n - 0x40) else .reserved

/-- The byte offset of a register operand (spec/10_state.md rule R21). -/
def RegName.byteOffset : RegName → Nat
  | .id => 0x000
  | .param => 0x004
  | .cmd => 0x008
  | .status => 0x00C
  | .irqEn => 0x010
  | .cfg => 0x014
  | .keylen => 0x018
  | .din q => 0x020 + 4 * q.val
  | .dout q => 0x030 + 4 * q.val
  | .key k => 0x100 + 4 * k
  | .offset o => o

/-- The word address of a register operand: byte offset >> 2 (spec/20_memory.md rule R60). -/
def RegName.addr (r : RegName) : Addr := BitVec.ofNat 7 (r.byteOffset / 4)

end Sys2Proof
end

