-- ==== Sys2Proof/Machine/State.lean ====
section
/-! DEFINITION. The state of the engine (spec/10_state.md), as plain data, the reasons a step can stop, and the state after reset. -/

namespace Sys2Proof.Machine

/-- The FSM states of spec/10_state.md rule R42. -/
inductive Fsm where
  | idle
  | kgP1 | kgP2 | kgFin
  | enPre | enRnd | enFin
  | dePre | deRnd | deFin
  | ckClr | ckFin
  deriving DecidableEq, Repr

/-- The error codes of STATUS.ERR_CODE (spec/60_exceptions.md rule R201). Codes 6 and 7 are never produced and have no name. -/
inductive ErrCode where
  | none
  | config
  | noKey
  | busy
  | badCmd
  /-- Reserved for the source's ShapeError; no rule raises it (rule R207). -/
  | shape
  deriving DecidableEq, Repr

/-- The fields of STATUS (spec/10_state.md rule R25), its reserved bits apart, which read 0. -/
structure Status where
  busy : Bool
  done : Bool
  err : Bool
  keyValid : Bool
  errCode : ErrCode
  schedR : BitVec 8
  activeOp : BitVec 4
  errOp : BitVec 4
  deriving DecidableEq, Repr

/-- The fields of IRQ_EN (spec/10_state.md rule R26). -/
structure IrqEn where
  doneIE : Bool
  errIE : Bool
  deriving DecidableEq, Repr

/-- The engine has no fault: no access, no command and no arithmetic condition stops it (spec/20_memory.md rule R77,
spec/60_exceptions.md rule R200). The type has no constructor, so no step can answer one; leaving it empty is safe. -/
inductive Fault where
  deriving DecidableEq, Repr

/-- Why the model has no meaning for an instruction. -/
inductive Refusal where
  /-- Raised by `exec` alone, for a command that has no meaning yet; none is left. Safe: the machine stops. -/
  | notModelled (mnemonic : String)
  deriving DecidableEq, Repr

/-- The state of one engine, with the build it is and the host cycles still to come. -/
structure State where
  /-- R_MAX and KEY_BYTES_MAX (spec/00_scope.md rule R7, rule R8): fixed for the machine, no step changes it. -/
  build : Build
  /-- STATUS (spec/10_state.md rule R25). -/
  status : Status
  /-- IRQ_EN (rule R26). -/
  irqEn : IrqEn
  /-- CFG.ROUNDS (rule R27). -/
  cfg : BitVec 8
  /-- KEYLEN.LEN (rule R28). -/
  keylen : BitVec 8
  /-- DIN0 to DIN3 (rule R29). -/
  din : Block
  /-- DOUT0 to DOUT3 (rule R30). -/
  dout : Block
  /-- KEY0 to KEY{C_MAX-1} (rule R31): C_MAX words. -/
  key : List Word
  /-- The round-key array (rule R33): 2·R_MAX+4 words. -/
  S : List Word
  /-- The key scratch array (rule R35): C_MAX words. -/
  L : List Word
  /-- The block datapath's working registers (rule R36). -/
  WA : Word
  WB : Word
  WC : Word
  WD : Word
  /-- The phase-2 accumulators (rule R37). -/
  KA : Word
  KB : Word
  /-- The cursors (rule R38). -/
  SI : Nat
  LJ : Nat
  KN : Nat
  RI : Nat
  /-- The latched parameters of a KEYGEN (rule R39). -/
  RL : BitVec 8
  CL : Nat
  NL : Nat
  VL : Nat
  /-- The FSM state (rule R42). -/
  fsm : Fsm
  /-- The MODEL's own field (log entry 2): the pins of the cycles to come, the next one first; after the last, every cycle is idle. -/
  script : List Pins
  /-- The MODEL's own field (log entry 5): `bus_rdata` as it was driven in the cycle just run. -/
  rdata : Word
  /-- The MODEL's own field (log entry 3): how many reset cycles have drawn their unspecified values. -/
  draws : Nat
  deriving DecidableEq, Repr

/-- The state whose contents after reset are unspecified (spec/10_state.md rule R44). -/
structure Unspecified where
  S : List Word
  L : List Word
  WA : Word
  WB : Word
  WC : Word
  WD : Word
  KA : Word
  KB : Word
  SI : Nat
  LJ : Nat
  KN : Nat
  RI : Nat
  RL : BitVec 8
  CL : Nat
  NL : Nat
  VL : Nat
  deriving DecidableEq, Repr

/-- STATUS after reset (rule R44): 0x00000000. -/
def Status.reset : Status := ⟨false, false, false, false, .none, 0, 0, 0⟩

/-- The state after a reset edge (rule R44), the unspecified values given. -/
def State.afterReset (b : Build) (u : Unspecified) (script : List Pins) (draws : Nat) : State where
  build := b
  status := Status.reset
  irqEn := ⟨false, false⟩
  cfg := 0x14#8
  keylen := 0x10#8
  din := Block.zero
  dout := Block.zero
  key := List.replicate b.cMax 0
  S := u.S
  L := u.L
  WA := u.WA
  WB := u.WB
  WC := u.WC
  WD := u.WD
  KA := u.KA
  KB := u.KB
  SI := u.SI
  LJ := u.LJ
  KN := u.KN
  RI := u.RI
  RL := u.RL
  CL := u.CL
  NL := u.NL
  VL := u.VL
  fsm := .idle
  script := script
  rdata := 0
  draws := draws

/-- The values State.reset holds where rule R44 says "unspecified": zero. DESIGN CHOICE, unsafe, log entry 6. -/
def Unspecified.zero (b : Build) : Unspecified :=
  ⟨List.replicate b.sLen 0, List.replicate b.cMax 0, 0, 0, 0, 0, 0, 0, 0, 0, 0, 0, 0, 0, 0, 0⟩

/-- The machine right after reset (rule R44, spec/70_reset_and_hazards.md rule R234), in the reference build (log entry 1), with no host cycle to come. -/
def State.reset : State := State.afterReset Build.reference (Unspecified.zero Build.reference) [] 0

end Sys2Proof.Machine
end

