-- ==== Sys2Proof/Machine/Flags.lean ====
section
/-! DEFINITION. The STATUS register as the host reads and writes it (spec/10_state.md rule R25, spec/43_control.md rule R181, rule R189),
IRQ_EN, and the irq output (rule R46). No command sets a flag from its arithmetic (rule R43). -/

namespace Sys2Proof.Machine

/-- The number of an error code (spec/60_exceptions.md rule R201), the 3-bit field ERR_CODE. -/
def ErrCode.code : ErrCode → BitVec 3
  | .none => 0#3
  | .config => 1#3
  | .noKey => 2#3
  | .busy => 3#3
  | .badCmd => 4#3
  | .shape => 5#3

/-- STATUS as read: the fields of rule R25, its reserved bits 0 (rule R181). -/
def Status.word (st : Status) : Word :=
  0#8 ++ st.errOp ++ st.activeOp ++ st.schedR ++ 0#1 ++ st.errCode.code
    ++ BitVec.ofBool st.keyValid ++ BitVec.ofBool st.err ++ BitVec.ofBool st.done ++ BitVec.ofBool st.busy

/-- A write to STATUS (rule R189): bit 1 clears DONE, bit 2 clears ERR with ERR_CODE and ERR_OP; every other bit is ignored. -/
def Status.w1c (st : Status) (v : Word) : Status :=
  let st1 := if v.getLsbD 1 then { st with done := false } else st
  if v.getLsbD 2 then { st1 with err := false, errCode := .none, errOp := 0 } else st1

/-- IRQ_EN as read (rule R181). -/
def IrqEn.word (e : IrqEn) : Word := 0#30 ++ BitVec.ofBool e.errIE ++ BitVec.ofBool e.doneIE

/-- A write to IRQ_EN (spec/43_control.md rule R188). -/
def IrqEn.ofWord (v : Word) : IrqEn := ⟨v.getLsbD 0, v.getLsbD 1⟩

/-- The irq output of the cycle that starts in s (rule R46): level, with no state of its own. -/
def irq (s : State) : Bool := (s.status.done && s.irqEn.doneIE) || (s.status.err && s.irqEn.errIE)

end Sys2Proof.Machine
end

