-- ==== Sys2Proof/Machine/Primitives.lean ====
section
/-! DEFINITION. The datapath primitives (spec/40_primitives.md): the rotators, the quadratic function, the phase-1 ROM and the word codec. -/

namespace Sys2Proof.Machine

/-- Rule R103: right rotation, the amount reduced modulo 32 first. -/
def ror (x : Word) (n : Nat) : Word :=
  if n % 32 = 0 then x else (x >>> (n % 32)) ||| (x <<< (32 - n % 32))

/-- Rule R104: left rotation, as the source defines it by the right rotation. -/
def rol (x : Word) (n : Nat) : Word := ror x ((32 - n % 32) % 32)

/-- Rule R105: a data-dependent rotation amount is the low 5 bits of its amount word. -/
def rotAmount (u : Word) : Nat := (u.extractLsb' 0 5).toNat

/-- Rule R102: f(x) = x(2x+1) modulo 2^32. -/
def quad (x : Word) : Word := x * (2#32 * x + 1#32)

/-- Rule R151, rule R165: a quadratic lane, rol(f(x), lgw). -/
def lane (x : Word) : Word := rol (quad x) Config.lgw

/-- Rule R107: ROM[i] = P + i·Q modulo 2^32. -/
def rom (i : Nat) : Word := Config.P + BitVec.ofNat 32 i * Config.Q

/-- The whole read-only table of a build (spec/10_state.md rule R34). -/
def romTable (b : Build) : List Word := (List.range b.sLen).map rom

/-- Entry i of an array; an entry that does not exist reads as a free value (log entry 4). -/
def wordAt (xs : List Word) (i : Nat) : Word := xs.getD i (Config.absentWord i)

/-- Rule R66, rule R67: the word of four bytes, the lowest-addressed one in bits 7:0. -/
def leWord (b0 b1 b2 b3 : Byte) : Word := b3 ++ b2 ++ b1 ++ b0

/-- Byte m of a word, bits [8m+7:8m] (rule R66, rule R67, rule R111). -/
def byteOf (x : Word) (m : Nat) : Byte := x.extractLsb' (8 * m) 8

/-- Rule R109: the number of key words, c = max(1, ceil(b/4)). -/
def keyWordCount (b : Nat) : Nat := max 1 ((b + 3) / 4)

/-- Byte p of a byte string, or nothing added (0) past its end: the zero extension of the narrower word (rule R108). -/
def byteOrZero (bytes : List Byte) (p : Nat) : Byte := bytes.getD p 0

/-- Rule R108, rule R110: key bytes to little-endian words; the leftover is the last word, and the empty key is one zero word. -/
def bytesToWords (bytes : List Byte) : List Word :=
  (List.range (keyWordCount bytes.length)).map fun j =>
    leWord (byteOrZero bytes (4 * j)) (byteOrZero bytes (4 * j + 1)) (byteOrZero bytes (4 * j + 2)) (byteOrZero bytes (4 * j + 3))

/-- The four bytes of a word, the least significant first (rule R111). -/
def wordBytes (x : Word) : List Byte := [byteOf x 0, byteOf x 1, byteOf x 2, byteOf x 3]

/-- Rule R111: words to bytes, each word as four little-endian bytes. -/
def wordsToBytes (words : List Word) : List Byte := words.flatMap wordBytes

/-- Rule R66: the block of 16 bytes, word q from bytes 4q to 4q+3. -/
def blockOfBytes (bytes : List Byte) : Block :=
  let word := fun q =>
    leWord (byteOrZero bytes (4 * q)) (byteOrZero bytes (4 * q + 1)) (byteOrZero bytes (4 * q + 2)) (byteOrZero bytes (4 * q + 3))
  ⟨word 0, word 1, word 2, word 3⟩

/-- Rule R68: the 16 bytes of a block, DOUT0 first. -/
def bytesOfBlock (x : Block) : List Byte := wordsToBytes [x.a, x.b, x.c, x.d]

end Sys2Proof.Machine
end

