-- ==== Sys2Proof/Machine/Operands.lean ====
section
/-! DEFINITION. Operand formation (spec/30_encoding.md rule R86): the round count, the key length, the key words under their byte mask,
the block, and the derived counts of a KEYGEN (spec/41_key_schedule.md rule R122). Write-data fields are of rule R87. -/

namespace Sys2Proof.Machine

/-- r = CFG[7:0], zero-extended (rule R86). -/
def cfgRounds (s : State) : Nat := s.cfg.toNat

/-- b = KEYLEN[7:0], zero-extended (rule R86). -/
def keyLength (s : State) : Nat := s.keylen.toNat

/-- The round count of the current cipher instance, STATUS.SCHED_R, which every transform uses (rule R86). -/
def schedRounds (s : State) : Nat := s.status.schedR.toNat

/-- n = 2r+4 (rule R122). -/
def roundKeyCount (r : Nat) : Nat := 2 * r + 4

/-- v = 3·max(c, n) (rule R122). -/
def mixCount (c n : Nat) : Nat := 3 * max c n

/-- One byte of the mask M(j, b) (rule R123). -/
def maskByte (p b : Nat) : Byte := if p < b then 0xFF#8 else 0x00#8

/-- M(j, b) of rule R123: byte m of word j is 0xFF if 4j + m < b, else 0x00. -/
def keyMask (j b : Nat) : Word :=
  leWord (maskByte (4 * j) b) (maskByte (4 * j + 1) b) (maskByte (4 * j + 2) b) (maskByte (4 * j + 3) b)

/-- L as loaded at a KEYGEN acceptance: L[j] = KEY[j] and M(j, b) for every j < C_MAX (rule R123). -/
def loadL (cMax : Nat) (key : List Word) (b : Nat) : List Word :=
  (List.range cMax).map fun j => wordAt key j &&& keyMask j b

/-- The b key bytes the KEY registers hold (spec/20_memory.md rule R67). -/
def keyBytes (key : List Word) (b : Nat) : List Byte := (wordsToBytes key).take b

/-- The 8-bit field a write to CFG or KEYLEN takes: wdata[7:0] (rule R87). -/
def low8 (v : Word) : BitVec 8 := v.extractLsb' 0 8

/-- The legality of a KEYGEN's operands (spec/60_exceptions.md rule R202): the CONFIG condition is its negation. -/
def configLegal (s : State) : Bool :=
  decide (1 ≤ cfgRounds s) && decide (cfgRounds s ≤ s.build.rMax) && decide (keyLength s ≤ s.build.keyBytesMax)

end Sys2Proof.Machine
end

