-- ==== Sys2Proof/Machine/Ops.lean ====
section
/-! DEFINITION. The shared operations: rejection (the engine's one exception, spec/60_exceptions.md rule R206) and the return from it
(rule R213), the common acceptance and completion effects (spec/43_control.md rule R184, rule R191), register reads and writes
(rule R180, rule R181), and reset (spec/70_reset_and_hazards.md rule R230). -/

namespace Sys2Proof.Machine

/-- Rule R206: `reject(CODE, op)`. The three error fields are written and nothing else. -/
def reject (code : ErrCode) (op : BitVec 4) (s : State) : State :=
  { s with status := { s.status with err := true, errCode := code, errOp := op } }

/-- Rule R213, rule R189: the host's return from an error, the W1C write of STATUS.ERR. -/
def clearError (s : State) : State :=
  { s with status := { s.status with err := false, errCode := .none, errOp := 0 } }

/-- Rule R184: the common acceptance effects. -/
def acceptCommon (op : BitVec 4) (s : State) : State :=
  { s with status := { s.status with busy := true, done := false, activeOp := op } }

/-- Rule R191: completion. -/
def complete (s : State) : State :=
  { s with status := { s.status with busy := false, done := true }, fsm := .idle }

/-- Rule R182, rule R204: a command other than NOP is rejected with BUSY while STATUS.BUSY = 1; otherwise its acceptance rule runs. -/
def unlessBusy (op : BitVec 4) (acceptance : State → State) (s : State) : State :=
  if s.status.busy then reject .busy op s else acceptance s

/-- Rule R40, rule R203: an ENCRYPT or DECRYPT is rejected with NOKEY while STATUS.KEY_VALID = 0. -/
def needsKey (op : BitVec 4) (acceptance : State → State) (s : State) : State :=
  if s.status.keyValid then acceptance s else reject .noKey op s

/-- Rule R121, rule R136: what ends a cipher instance at an acceptance, KEY_VALID <- 0 and SCHED_R <- 0. -/
def endCipher (s : State) : State :=
  { s with status := { s.status with keyValid := false, schedR := 0 } }

/-- Rule R150, rule R157: the block is copied into the working registers at acceptance. -/
def latchBlock (s : State) : State :=
  { s with WA := s.din.a, WB := s.din.b, WC := s.din.c, WD := s.din.d }

/-- Rule R130, rule R138: the scratch state is zeroed at the completion of KEYGEN and CLRKEY. -/
def clearScratch (s : State) : State :=
  { s with L := List.replicate s.build.cMax 0, KA := 0, KB := 0 }

/-- PARAM (spec/10_state.md rule R23): {LGW, W, KEY_BYTES_MAX, R_MAX}, eight bits each. -/
def paramWord (b : Build) : Word :=
  BitVec.ofNat 8 Config.lgw ++ BitVec.ofNat 8 Config.w ++ BitVec.ofNat 8 b.keyBytesMax ++ BitVec.ofNat 8 b.rMax

/-- Rule R181: the value a read of a register returns. -/
def readReg (s : State) : Reg → Word
  | .id => Config.idValue
  | .param => paramWord s.build
  | .cmd => 0
  | .status => s.status.word
  | .irqEn => s.irqEn.word
  | .cfg => 0#24 ++ s.cfg
  | .keylen => 0#24 ++ s.keylen
  | .din q => s.din.get q
  | .dout q => s.dout.get q
  | .key _ => 0
  | .reserved => 0

/-- Rule R181: `BusRead(a)`. -/
def busRead (s : State) (a : Addr) : Word := readReg s (decodeAddr s.build a)

/-- Rule R180: the effect of a write to a register other than CMD, whose writes run the command procedure (rule R182). -/
def writeReg (s : State) (v : Word) : Reg → State
  | .id => s
  | .param => s
  | .cmd => s
  | .status => { s with status := s.status.w1c v }
  | .irqEn => { s with irqEn := IrqEn.ofWord v }
  | .cfg => { s with cfg := low8 v }
  | .keylen => { s with keylen := low8 v }
  | .din q => { s with din := s.din.set q v }
  | .dout _ => s
  | .key k => { s with key := s.key.set k v }
  | .reserved => s

/-- Rule R205: a CMD write with a reserved opcode is rejected with BADCMD, in any state. -/
def badCommand (v : Word) (s : State) : State := reject .badCmd (opField v) s

/-- Rule R44, rule R231: the unspecified values a reset edge leaves, drawn as free values (log entry 3). -/
def Unspecified.drawn (b : Build) (n : Nat) : Unspecified where
  S := (List.range b.sLen).map (Config.resetS n)
  L := (List.range b.cMax).map (Config.resetL n)
  WA := Config.resetWord n .WA
  WB := Config.resetWord n .WB
  WC := Config.resetWord n .WC
  WD := Config.resetWord n .WD
  KA := Config.resetWord n .KA
  KB := Config.resetWord n .KB
  SI := Config.resetCounter n .SI
  LJ := Config.resetCounter n .LJ
  KN := Config.resetCounter n .KN
  RI := Config.resetCounter n .RI
  RL := Config.resetRL n
  CL := Config.resetCounter n .CL
  NL := Config.resetCounter n .NL
  VL := Config.resetCounter n .VL

/-- Rule R230 to rule R233: a cycle with `rst_n` = 0, whatever the FSM state and the access presented. -/
def resetCycle (s : State) (rest : List Pins) : State :=
  State.afterReset s.build (Unspecified.drawn s.build s.draws) rest (s.draws + 1)

end Sys2Proof.Machine
end

