-- ==== Sys2Proof/Machine/KeySchedule.lean ====
section
/-! DEFINITION. The key-schedule commands (spec/41_key_schedule.md): the pure key schedule, and KEYGEN and CLRKEY with the FSM ticks that
carry them out. A tick `tickX s t` reads the start-of-cycle state s only and writes onto t (spec/70_reset_and_hazards.md rule R236). -/

namespace Sys2Proof.Machine

/-- Rule R125: phase 1 as a pure definition, S[0] = P and S[i] = S[i-1] + Q, as the list of its first m + 1 entries with the last first. -/
def expandRev : Nat → List Word
  | 0 => [Config.P]
  | m + 1 =>
    match expandRev m with
    | [] => []
    | x :: xs => (x + Config.Q) :: x :: xs

/-- Rule R125: the n entries phase 1 produces, for n ≥ 1. -/
def expand (n : Nat) : List Word := (expandRev (n - 1)).reverse

/-- The variables of the phase-2 loop (rule R126). -/
structure MixState where
  S : List Word
  L : List Word
  A : Word
  B : Word
  i : Nat
  j : Nat
  deriving DecidableEq, Repr

/-- Rule R126: one iteration of phase 2; its statements run in order, each reading the values left by the one before. -/
def mixStep (n c : Nat) (m : MixState) : MixState :=
  let A := rol (wordAt m.S m.i + m.A + m.B) 3
  let B := rol (wordAt m.L m.j + A + m.B) (rotAmount (A + m.B))
  { S := m.S.set m.i A, L := m.L.set m.j B, A := A, B := B, i := (m.i + 1) % n, j := (m.j + 1) % c }

/-- Rule R126: v iterations. -/
def mixLoop (n c : Nat) : Nat → MixState → MixState
  | 0, m => m
  | v + 1, m => mixLoop n c v (mixStep n c m)

/-- Rule R126: where phase 2 starts, for the words L. -/
def mixStart (r : Nat) (L : List Word) : MixState := ⟨expand (roundKeyCount r), L, 0, 0, 0, 0⟩

/-- Rule R127: `KeySchedule(K, b, r)`, b the length of K. -/
def keySchedule (K : List Byte) (r : Nat) : List Word :=
  let n := roundKeyCount r
  let c := keyWordCount K.length
  (mixLoop n c (mixCount c n) (mixStart r (bytesToWords K))).S

/-- Rule R121: what a KEYGEN acceptance latches, from the registers of the start of the cycle. -/
def latchKeygen (s : State) : State :=
  let r := cfgRounds s
  let b := keyLength s
  let c := keyWordCount b
  let n := roundKeyCount r
  { s with
    RL := s.cfg, CL := c, NL := n, VL := mixCount c n
    L := loadL s.build.cMax s.key b
    KA := 0, KB := 0, SI := 0, LJ := 0, KN := 0
    fsm := .kgP1 }

/-- Rule R121: the KEYGEN acceptance. -/
def acceptKeygen (s : State) : State :=
  if configLegal s then acceptCommon Instr.keygen.op (endCipher (latchKeygen s))
  else reject .config Instr.keygen.op s

/-- KEYGEN (rule R120, rule R121): the effect of its CMD write. -/
def execKeygen (s : State) : Host.Outcome State Fault Refusal :=
  .next (unlessBusy Instr.keygen.op acceptKeygen s)

/-- Rule R136: what a CLRKEY acceptance does before the common effects. -/
def latchClrkey (s : State) : State :=
  { s with key := List.replicate s.build.cMax 0, SI := 0, fsm := .ckClr }

/-- Rule R136: the CLRKEY acceptance. -/
def acceptClrkey (s : State) : State := acceptCommon Instr.clrkey.op (endCipher (latchClrkey s))

/-- CLRKEY (rule R136): the effect of its CMD write. -/
def execClrkey (s : State) : Host.Outcome State Fault Refusal :=
  .next (unlessBusy Instr.clrkey.op acceptClrkey s)

/-- Rule R128: the tick of KG_P1. -/
def tickKgP1 (s t : State) : State :=
  if s.SI = s.NL - 1 then { t with S := t.S.set s.SI (rom s.SI), SI := 0, fsm := .kgP2 }
  else { t with S := t.S.set s.SI (rom s.SI), SI := s.SI + 1 }

/-- Rule R129: the tick of KG_P2. -/
def tickKgP2 (s t : State) : State :=
  let a := rol (wordAt s.S s.SI + s.KA + s.KB) 3
  let b' := rol (wordAt s.L s.LJ + a + s.KB) (rotAmount (a + s.KB))
  { t with
    S := t.S.set s.SI a
    L := t.L.set s.LJ b'
    KA := a
    KB := b'
    SI := (s.SI + 1) % s.NL
    LJ := (s.LJ + 1) % s.CL
    KN := s.KN + 1
    fsm := if s.KN = s.VL - 1 then .kgFin else .kgP2 }

/-- Rule R130: the tick of KG_FIN, the completion of KEYGEN. -/
def tickKgFin (s t : State) : State :=
  let t1 := { t with status := { t.status with keyValid := true, schedR := s.RL } }
  complete (clearScratch t1)

/-- Rule R137: the tick of CK_CLR. -/
def tickCkClr (s t : State) : State :=
  if s.SI = 2 * s.build.rMax + 3 then { t with S := t.S.set s.SI 0, fsm := .ckFin }
  else { t with S := t.S.set s.SI 0, SI := s.SI + 1 }

/-- Rule R138: the tick of CK_FIN, the completion of CLRKEY. -/
def tickCkFin (_s t : State) : State := complete (clearScratch t)

end Sys2Proof.Machine
end

