-- ==== Sys2Proof/Machine/RoundFunction.lean ====
section
/-! DEFINITION. The round-function commands (spec/42_round_function.md): the pure transforms, and ENCRYPT and DECRYPT with the FSM ticks
that carry them out. A tick `tickX s t` reads the start-of-cycle state s only and writes onto t (spec/70_reset_and_hazards.md rule R236). -/

namespace Sys2Proof.Machine

/-- Rule R151: the body of the encryption loop at index i. -/
def encRound (S : List Word) (i : Nat) (x : Block) : Block :=
  let t := lane x.b
  let u := lane x.d
  let a := rol (x.a ^^^ t) (rotAmount u) + wordAt S (2 * i)
  let c := rol (x.c ^^^ u) (rotAmount t) + wordAt S (2 * i + 1)
  ⟨x.b, c, x.d, a⟩

/-- Rule R151: the loop, from index i, for k iterations. -/
def encLoop (S : List Word) (i : Nat) : Nat → Block → Block
  | 0, x => x
  | k + 1, x => encLoop S (i + 1) k (encRound S i x)

/-- Rule R151: B + S[0] and D + S[1]. -/
def encPre (S : List Word) (x : Block) : Block :=
  { x with b := x.b + wordAt S 0, d := x.d + wordAt S 1 }

/-- Rule R151: A + S[2r+2] and C + S[2r+3]. -/
def encPost (S : List Word) (r : Nat) (x : Block) : Block :=
  { x with a := x.a + wordAt S (2 * r + 2), c := x.c + wordAt S (2 * r + 3) }

/-- Rule R151: `Encrypt((A, B, C, D), S, r)`. -/
def encryptBlock (S : List Word) (r : Nat) (x : Block) : Block :=
  encPost S r (encLoop S 1 r (encPre S x))

/-- Rule R158: the body of the decryption loop at index i. -/
def decRound (S : List Word) (i : Nat) (x : Block) : Block :=
  let y : Block := ⟨x.d, x.a, x.b, x.c⟩
  let u := lane y.d
  let t := lane y.b
  let c := ror (y.c - wordAt S (2 * i + 1)) (rotAmount t) ^^^ u
  let a := ror (y.a - wordAt S (2 * i)) (rotAmount u) ^^^ t
  ⟨a, y.b, c, y.d⟩

/-- Rule R158: the loop, from index i down to 1. -/
def decLoop (S : List Word) : Nat → Block → Block
  | 0, x => x
  | i + 1, x => decLoop S i (decRound S (i + 1) x)

/-- Rule R158: C - S[2r+3] and A - S[2r+2]. -/
def decPre (S : List Word) (r : Nat) (x : Block) : Block :=
  { x with c := x.c - wordAt S (2 * r + 3), a := x.a - wordAt S (2 * r + 2) }

/-- Rule R158: D - S[1] and B - S[0]. -/
def decPost (S : List Word) (x : Block) : Block :=
  { x with d := x.d - wordAt S 1, b := x.b - wordAt S 0 }

/-- Rule R158: `Decrypt((A, B, C, D), S, r)`. -/
def decryptBlock (S : List Word) (r : Nat) (x : Block) : Block :=
  decPost S (decLoop S r (decPre S r x))

/-- Rule R150: the ENCRYPT acceptance. -/
def acceptEncrypt (s : State) : State :=
  acceptCommon Instr.encrypt.op { latchBlock s with fsm := .enPre }

/-- ENCRYPT (rule R150): the effect of its CMD write. -/
def execEncrypt (s : State) : Host.Outcome State Fault Refusal :=
  .next (unlessBusy Instr.encrypt.op (needsKey Instr.encrypt.op acceptEncrypt) s)

/-- Rule R157: the DECRYPT acceptance. -/
def acceptDecrypt (s : State) : State :=
  acceptCommon Instr.decrypt.op { latchBlock s with fsm := .dePre }

/-- DECRYPT (rule R157): the effect of its CMD write. -/
def execDecrypt (s : State) : Host.Outcome State Fault Refusal :=
  .next (unlessBusy Instr.decrypt.op (needsKey Instr.decrypt.op acceptDecrypt) s)

/-- Rule R152: the tick of EN_PRE. -/
def tickEnPre (s t : State) : State :=
  { t with WB := s.WB + wordAt s.S 0, WD := s.WD + wordAt s.S 1, RI := 1, fsm := .enRnd }

/-- Rule R153: the tick of EN_RND. -/
def tickEnRnd (s t : State) : State :=
  let tt := lane s.WB
  let u := lane s.WD
  let a' := rol (s.WA ^^^ tt) (rotAmount u) + wordAt s.S (2 * s.RI)
  let c' := rol (s.WC ^^^ u) (rotAmount tt) + wordAt s.S (2 * s.RI + 1)
  { t with
    WA := s.WB, WB := c', WC := s.WD, WD := a'
    RI := s.RI + 1
    fsm := if s.RI = schedRounds s then .enFin else .enRnd }

/-- Rule R154: the tick of EN_FIN, post-whitening and completion. -/
def tickEnFin (s t : State) : State :=
  let r := schedRounds s
  complete { t with dout := ⟨s.WA + wordAt s.S (2 * r + 2), s.WB, s.WC + wordAt s.S (2 * r + 3), s.WD⟩ }

/-- Rule R159: the tick of DE_PRE. -/
def tickDePre (s t : State) : State :=
  let r := schedRounds s
  { t with WC := s.WC - wordAt s.S (2 * r + 3), WA := s.WA - wordAt s.S (2 * r + 2), RI := r, fsm := .deRnd }

/-- Rule R160: the tick of DE_RND. -/
def tickDeRnd (s t : State) : State :=
  let A := s.WD
  let B := s.WA
  let C := s.WB
  let D := s.WC
  let u := lane D
  let tt := lane B
  let c' := ror (C - wordAt s.S (2 * s.RI + 1)) (rotAmount tt) ^^^ u
  let a' := ror (A - wordAt s.S (2 * s.RI)) (rotAmount u) ^^^ tt
  { t with
    WA := a', WB := B, WC := c', WD := D
    RI := s.RI - 1
    fsm := if s.RI = 1 then .deFin else .deRnd }

/-- Rule R161: the tick of DE_FIN, the removal of the pre-whitening and completion. -/
def tickDeFin (s t : State) : State :=
  complete { t with dout := ⟨s.WA, s.WB - wordAt s.S 0, s.WC, s.WD - wordAt s.S 1⟩ }

end Sys2Proof.Machine
end

