-- ==== Sys2Proof/Machine/Control.lean ====
section
/-! DEFINITION. NOP (spec/43_control.md rule R183), the FSM tick (spec/10_state.md rule R42) and the parts of a clock cycle
(spec/70_reset_and_hazards.md rule R236) that Step.lean puts together. -/

namespace Sys2Proof.Machine

/-- NOP (rule R183): it writes no state, even while BUSY = 1. -/
def execNop (s : State) : Host.Outcome State Fault Refusal := .next s

/-- Rule R42, rule R236: the tick of the FSM state of s, computed from s and written onto t; none in IDLE. -/
def tick (s t : State) : State :=
  match s.fsm with
  | .idle => t
  | .kgP1 => tickKgP1 s t
  | .kgP2 => tickKgP2 s t
  | .kgFin => tickKgFin s t
  | .enPre => tickEnPre s t
  | .enRnd => tickEnRnd s t
  | .enFin => tickEnFin s t
  | .dePre => tickDePre s t
  | .deRnd => tickDeRnd s t
  | .deFin => tickDeFin s t
  | .ckClr => tickCkClr s t
  | .ckFin => tickCkFin s t

/-- The pins of the next cycle: the head of the script, or an idle cycle where the host presents nothing more (log entry 2). -/
def nextPins (s : State) : Pins :=
  match s.script with
  | [] => Access.pins .idle
  | p :: _ => p

/-- `bus_rdata` in the cycle (rule R236, rule R61, rule R233): the value read, from the state at its start; 0 where there is no read and while `rst_n` = 0. -/
def cycleRdata (s : State) (p : Pins) : Word :=
  match p.rstN, p.access with
  | true, .read a => busRead s a
  | _, _ => 0

/-- Rule R236, rule R237: the end of a cycle. The bus effects sb, computed from s, with the tick of s written onto them, so that a
completion's DONE <- 1 beats a W1C of the same cycle; then the cycle's pins are used up. -/
def commit (s sb : State) : State :=
  { tick s sb with script := s.script.tail, rdata := cycleRdata s (nextPins s) }

/-- The pins by which the host writes CMD, with the table's word of nbits bits as the command word. -/
def commandPins (nbits w : Nat) : Pins :=
  Access.pins (.write RegName.cmd.addr (BitVec.ofNat 32 (w % 2 ^ nbits)))

/-- Rule R193: the engine is quiescent in a cycle where fsm = IDLE. -/
def quiescent (s : State) : Bool := decide (s.fsm = .idle)

/-- The number of FSM ticks of each FSM sequence (spec/43_control.md rule R192; the reference latency N of
spec/70_reset_and_hazards.md rule R242), for a round count r, c key words and R_MAX. -/
def tickCount (rMax r c : Nat) : Instr → Nat
  | .nop => 0
  | .keygen => roundKeyCount r + mixCount c (roundKeyCount r) + 1
  | .encrypt => r + 2
  | .decrypt => r + 2
  | .clrkey => 2 * rMax + 5

end Sys2Proof.Machine
end

