-- ==== Sys2Proof/Machine/Step.lean ====
section
/-! DEFINITION. One step: one clock cycle (spec/70_reset_and_hazards.md rule R236), with the pins the script holds for it. -/

namespace Sys2Proof.Machine

/-- Rule R182: the command procedure of a CMD write, its decoding and its dispatch. -/
def commandWrite (v : Word) (s : State) : Host.Outcome State Fault Refusal :=
  match decode v with
  | .ok i => exec i s
  | .error _ => .next (badCommand v s)

/-- Rule R180, rule R236: the bus effects of an access, computed from the state at the start of the cycle. -/
def busEffects (s : State) : Access → Host.Outcome State Fault Refusal
  | .idle => .next s
  | .read _ => .next s
  | .write a v =>
    match decodeAddr s.build a with
    | .cmd => commandWrite v s
    | r => .next (writeReg s v r)

/-- One clock cycle: a reset edge (rule R230, rule R231), or the bus effects and the FSM tick of the cycle (rule R236). -/
def step (s : State) : Host.Outcome State Fault Refusal :=
  if (nextPins s).rstN then
    match busEffects s (nextPins s).access with
    | .next sb => .next (commit s sb)
    | .fault f => .fault f
    | .refused r => .refused r
  else .next (resetCycle s s.script.tail)

/-- The host presents a CMD write of the table's word in the next cycle; nothing else changes. -/
def State.withFetchWord (s : State) (nbits w : Nat) : State :=
  { s with script := commandPins nbits w :: s.script }

end Sys2Proof.Machine
end

