-- ==== Sys2Proof/Machine/HostProgram.lean ====
section
/-! DEFINITION. The expansion of the host assembly (spec/30_encoding.md rule R88, rule R89) into the pins of the cycles it costs. -/

namespace Sys2Proof.Machine

/-- `wr REG, VALUE` (rule R88). -/
def wrPins (r : RegName) (v : Word) : Pins := Access.pins (.write r.addr v)

/-- `rd REG` (rule R88). -/
def rdPins (r : RegName) : Pins := Access.pins (.read r.addr)

/-- `reset` (rule R88): one cycle with `rst_n` = 0. -/
def resetPins : Pins := { Access.pins .idle with rstN := false }

/-- The key-word writes of `setkey`, from KEYm on (rule R89). -/
def setKeyPins (m : Nat) : List Word → List Pins
  | [] => []
  | k :: ks => wrPins (.key m) k :: setKeyPins (m + 1) ks

/-- The cycles of one line of host assembly (rule R88, rule R89). LEN of `setkey` is written whole, all 32 bits of it (log entry 18);
the KEYLEN write drops bits 31:8 (spec/43_control.md rule R187). -/
def expandHostOp : HostOp → List Pins
  | .wr r v => [wrPins r v]
  | .rd r => [rdPins r]
  | .idle n => List.replicate n (Access.pins .idle)
  | .reset => [resetPins]
  | .cmd i => [wrPins .cmd (encode i)]
  | .poll n => List.replicate n (rdPins .status)
  | .clrdone => [wrPins .status 0x00000002#32]
  | .clrerr => [wrPins .status 0x00000004#32]
  | .clrall => [wrPins .status 0x00000006#32]
  | .setblk x => [wrPins (.din 0) x.a, wrPins (.din 1) x.b, wrPins (.din 2) x.c, wrPins (.din 3) x.d]
  | .getblk => [rdPins (.dout 0), rdPins (.dout 1), rdPins (.dout 2), rdPins (.dout 3)]
  | .setkey len ks => wrPins .keylen len :: setKeyPins 0 ks

/-- The cycles of a host program. -/
def hostProgram (ops : List HostOp) : List Pins := ops.flatMap expandHostOp

/-- The state with a host program to come: the program is presented from outside the machine (log entry 2). -/
def State.withHostProgram (s : State) (ops : List HostOp) : State := { s with script := hostProgram ops }

end Sys2Proof.Machine
end

