-- ==== Sys2Proof/Safety.lean ====
section
/-! DEFINITION. What claims about the engine are stated in: runs of clock cycles, the invariants of the state (spec/10_state.md rule R41,
rule R47), and what two states may differ in without a host seeing it. -/

namespace Sys2Proof.Machine

/-- k clock cycles, one after the other. -/
def runCycles : Nat → State → Host.Outcome State Fault Refusal
  | 0, s => .next s
  | k + 1, s =>
    match step s with
    | .next t => runCycles k t
    | .fault f => .fault f
    | .refused r => .refused r

/-- The host does not reset the engine in any cycle to come. -/
def State.NoReset (s : State) : Prop := ∀ p ∈ s.script, p.rstN = true

/-- The pins write one of the KEY registers of the build. -/
def writesKey (b : Build) (p : Pins) : Bool :=
  match p.access with
  | .write a _ =>
    match decodeAddr b a with
    | .key _ => true
    | _ => false
  | _ => false

/-- The pins write CMD with the command i (rule R182). -/
def commands (b : Build) (i : Instr) (p : Pins) : Prop :=
  ∃ a v, p.access = .write a v ∧ decodeAddr b a = .cmd ∧ decode v = .ok i

/-- The command whose sequence an FSM state belongs to (spec/43_control.md rule R192), by its opcode; 0 in IDLE. -/
def Fsm.op : Fsm → BitVec 4
  | .idle => 0
  | .kgP1 | .kgP2 | .kgFin => Instr.keygen.op
  | .enPre | .enRnd | .enFin => Instr.encrypt.op
  | .dePre | .deRnd | .deFin => Instr.decrypt.op
  | .ckClr | .ckFin => Instr.clrkey.op

/-- The FSM states whose tick completes a command (rule R191). -/
def Fsm.completes : Fsm → Bool
  | .kgFin | .enFin | .deFin | .ckFin => true
  | _ => false

/-- STATUS is coherent (rule R25, rule R201, rule R207): the error fields are 0 without an error, an error has a code some rule raises and a
command that is not NOP, and SCHED_R is a legal round count exactly while KEY_VALID = 1. -/
structure Status.Coherent (b : Build) (st : Status) : Prop where
  noErr : st.err = false → st.errCode = .none ∧ st.errOp = 0
  isErr : st.err = true → st.errCode ≠ .none ∧ st.errCode ≠ .shape ∧ st.errOp ≠ 0
  noKey : st.keyValid = false → st.schedR = 0
  isKey : st.keyValid = true → 1 ≤ st.schedR.toNat ∧ st.schedR.toNat ≤ b.rMax
  active : st.activeOp.toNat ≤ 4

/-- The control state is well formed: the arrays have their lengths (rule R31, rule R33, rule R35), BUSY is 1 exactly when the FSM runs
(rule R41), STATUS is coherent, the latched parameters of a running KEYGEN are those of rule R39 within the bounds of rule R122, and the
cursors of the running command are within the bounds of its loops (rule R38). -/
structure State.Wf (s : State) : Prop where
  build : s.build.wellFormed = true
  keyLen : s.key.length = s.build.cMax
  sLen : s.S.length = s.build.sLen
  lLen : s.L.length = s.build.cMax
  busy : s.status.busy = true ↔ s.fsm ≠ .idle
  status : s.status.Coherent s.build
  active : s.fsm ≠ .idle → s.status.activeOp = s.fsm.op
  keygen : s.fsm.op = Instr.keygen.op →
    s.status.keyValid = false ∧ 1 ≤ s.RL.toNat ∧ s.RL.toNat ≤ s.build.rMax ∧ 1 ≤ s.CL ∧ s.CL ≤ s.build.cMax ∧
      s.NL = roundKeyCount s.RL.toNat ∧ s.VL = mixCount s.CL s.NL
  kgP1 : s.fsm = .kgP1 → s.SI < s.NL ∧ s.LJ = 0 ∧ s.KN = 0 ∧ s.KA = 0 ∧ s.KB = 0
  kgP2 : s.fsm = .kgP2 → s.SI = s.KN % s.NL ∧ s.LJ = s.KN % s.CL ∧ s.KN < s.VL
  encrypt : s.fsm.op = Instr.encrypt.op → s.status.keyValid = true
  enRnd : s.fsm = .enRnd → 1 ≤ s.RI ∧ s.RI ≤ schedRounds s
  decrypt : s.fsm.op = Instr.decrypt.op → s.status.keyValid = true
  deRnd : s.fsm = .deRnd → 1 ≤ s.RI ∧ s.RI ≤ schedRounds s
  clrkey : s.fsm.op = Instr.clrkey.op → s.status.keyValid = false
  ckClr : s.fsm = .ckClr → s.SI < s.build.sLen

/-- The running KEYGEN has so far computed the key schedule of the key bytes K (spec/41_key_schedule.md rule R128 to rule R130). -/
def State.Building (K : List Byte) (s : State) : Prop :=
  match s.fsm with
  | .kgP1 => s.CL = keyWordCount K.length ∧ s.L.take s.CL = bytesToWords K ∧ s.S.take s.SI = (expand s.NL).take s.SI
  | .kgP2 => s.CL = keyWordCount K.length ∧
      mixLoop s.NL s.CL s.KN (mixStart s.RL.toNat (bytesToWords K))
        = ⟨s.S.take s.NL, s.L.take s.CL, s.KA, s.KB, s.SI, s.LJ⟩
  | .kgFin => s.S.take s.NL = keySchedule K s.RL.toNat
  | _ => True

/-- The cipher-table invariant (spec/10_state.md rule R47): while KEY_VALID = 1, S[0..2r+3] is the key schedule of some key of a legal length
for r = SCHED_R; and a running KEYGEN is computing one. -/
structure State.TableInv (s : State) : Prop where
  valid : s.status.keyValid = true →
    ∃ K : List Byte, K.length ≤ s.build.keyBytesMax ∧
      s.S.take (roundKeyCount (schedRounds s)) = keySchedule K (schedRounds s)
  building : s.fsm.op = Instr.keygen.op → ∃ K : List Byte, K.length ≤ s.build.keyBytesMax ∧ s.Building K

/-- The two states give the host the same build and the same host-visible registers (spec/10_state.md rule R20, section 2), KEY included. -/
structure State.SameRegisters (s t : State) : Prop where
  build : s.build = t.build
  status : s.status = t.status
  irqEn : s.irqEn = t.irqEn
  cfg : s.cfg = t.cfg
  keylen : s.keylen = t.keylen
  din : s.din = t.din
  dout : s.dout = t.dout
  key : s.key = t.key
  rdata : s.rdata = t.rdata

/-- The two states differ at most in key material and working data: KEY, S, L, KA, KB and WA to WD (spec/10_state.md rule R48,
spec/60_exceptions.md rule R216). -/
def State.SameButSecrets (s t : State) : Prop :=
  ∃ (key S L : List Word) (a b c d ka kb : Word),
    key.length = s.key.length ∧ S.length = s.S.length ∧ L.length = s.L.length ∧
    t = { s with key := key, S := S, L := L, WA := a, WB := b, WC := c, WD := d, KA := ka, KB := kb }

/-- The two states agree on everything a running command reads or writes: all but the input registers, IRQ_EN, the DONE flag, the
error record and the model's own record of the bus. -/
structure State.SameCommand (s t : State) : Prop where
  build : s.build = t.build
  busy : s.status.busy = t.status.busy
  keyValid : s.status.keyValid = t.status.keyValid
  schedR : s.status.schedR = t.status.schedR
  activeOp : s.status.activeOp = t.status.activeOp
  dout : s.dout = t.dout
  S : s.S = t.S
  L : s.L = t.L
  WA : s.WA = t.WA
  WB : s.WB = t.WB
  WC : s.WC = t.WC
  WD : s.WD = t.WD
  KA : s.KA = t.KA
  KB : s.KB = t.KB
  SI : s.SI = t.SI
  LJ : s.LJ = t.LJ
  KN : s.KN = t.KN
  RI : s.RI = t.RI
  RL : s.RL = t.RL
  CL : s.CL = t.CL
  NL : s.NL = t.NL
  VL : s.VL = t.VL
  fsm : s.fsm = t.fsm

end Sys2Proof.Machine
end

