-- ==== Sys2Proof/Certificates/Slice0/Obligations.lean ====
section
/-! DEFINITION. The statements about the engine, for the provers. Each docstring names the rule of spec/ it formalises. Where a statement
counts cycles it rests on the reference latency (log entry 7) and says so. -/

open Sys2Proof Sys2Proof.Machine

/-! ## Encoding and decoding -/

/-- Rule R81: CMD_word[31:4] is not decoded; a CMD write of any word has the effect of the same word with those bits 0. -/
def Obligations.UpperCommandBitsAreIgnored : Prop :=
  ∀ (v : Word) (s : State), commandWrite v s = commandWrite (v &&& 0x0000000F#32) s

/-- Rule R82, rule R81: whatever the ignored bits, decoding an encoded command gives it back, and a word that decodes to a command is an
encoding of that command. -/
def Obligations.CommandDecodeAndEncodeAgree : Prop :=
  (∀ (ignored : BitVec 28) (i : Instr), i.wellFormed = true ∧ decode (encodeWith ignored i) = .ok i) ∧
  (∀ (w : Word) (i : Instr), decode w = .ok i → w = encodeWith (w.extractLsb' 4 28) i)

/-- Rule R83, rule R205: a CMD write of a reserved opcode, in any state, is rejected with BADCMD and its opcode recorded; nothing else
changes; BADCMD is code 4; and only OP = 0 decodes to NOP. -/
def Obligations.ReservedOpcodesAreRejectedWithBadCmd : Prop :=
  (∀ (v : Word) (s : State), 5 ≤ (v.extractLsb' 0 4).toNat →
    commandWrite v s
      = .next { s with status := { s.status with err := true, errCode := .badCmd, errOp := v.extractLsb' 0 4 } }) ∧
  ErrCode.badCmd.code = 4#3 ∧
  (∀ v : Word, decode v = .ok .nop ↔ v.extractLsb' 0 4 = 0#4)

/-- Rule R80: the transaction word of an access decodes to that access and is well formed; a well-formed transaction word is the word of
the access it decodes to. The third clause, that a read word with DATA other than 0 is refused as `readWithData`, is no rule of the spec but
the model's choice (DESIGN CHOICE, log entry 17), and so is that `Transaction.wellFormed` leaves that word out. -/
def Obligations.TransactionDecodeAndEncodeAgree : Prop :=
  (∀ (a : Access) (t : Transaction), encodeTransaction a = some t → decodeTransaction t = .ok a ∧ t.wellFormed = true) ∧
  (∀ t : Transaction, t.wellFormed = true → ∃ a, decodeTransaction t = .ok a ∧ encodeTransaction a = some t) ∧
  (∀ t : Transaction, t.wellFormed = false → decodeTransaction t = .error .readWithData)

/-- Words written out from rule R81, rule R82 and rule R80 decode to what they stand for. -/
def Obligations.WrittenOutWordsDecode : Prop :=
  decode 0b00000000000000000000000000000000#32 = .ok .nop ∧
  decode 0b11111111111111111111111111110000#32 = .ok .nop ∧
  decode 0b00000000000000000000000000000001#32 = .ok .keygen ∧
  decode 0b00000000000000000000000000010010#32 = .ok .encrypt ∧
  decode 0b10000000000000000000000000000011#32 = .ok .decrypt ∧
  decode 0b00000000000000000000000000000100#32 = .ok .clrkey ∧
  decode 0b00000000000000000000000000000101#32 = .error (.reservedOpcode 0x5#4) ∧
  decode 0b00000000000000000000000000001111#32 = .error (.reservedOpcode 0xF#4) ∧
  decodeTransaction 0x8200000001#40 = .ok (.write 0x02#7 0x00000001#32) ∧
  decodeTransaction 0x0300000000#40 = .ok (.read 0x03#7)

/-- Rule R21, rule R60, rule R77: the register of every word address; every address is a register or reserved, and no access at any
address stops the engine. -/
def Obligations.AddressDecodeIsTotal : Prop :=
  (∀ b : Build, b.wellFormed = true →
    decodeAddr b 0x00 = .id ∧ decodeAddr b 0x01 = .param ∧ decodeAddr b 0x02 = .cmd ∧ decodeAddr b 0x03 = .status ∧
    decodeAddr b 0x04 = .irqEn ∧ decodeAddr b 0x05 = .cfg ∧ decodeAddr b 0x06 = .keylen ∧
    (∀ q : Fin 4, decodeAddr b (BitVec.ofNat 7 (0x08 + q.val)) = .din q ∧ decodeAddr b (BitVec.ofNat 7 (0x0C + q.val)) = .dout q) ∧
    (∀ k, k < b.cMax → decodeAddr b (BitVec.ofNat 7 (0x40 + k)) = .key k) ∧
    (∀ a : Addr, a = 0x07 ∨ (0x10 ≤ a.toNat ∧ a.toNat < 0x40) ∨ 0x40 + b.cMax ≤ a.toNat → decodeAddr b a = .reserved)) ∧
  (∀ s : State, ∃ t, step s = .next t)

/-! ## Register reads -/

/-- Rule R181: the value of a read at every word address, computed from the state at the start of the cycle. A read changes no state but what
the FSM tick of its cycle changes, the same as in an idle cycle. -/
def Obligations.BusReadReturnsTheRegister : Prop :=
  ∀ s : State, s.build.wellFormed = true →
    busRead s 0x00 = 0x52433601#32 ∧
    busRead s 0x01 = 5#8 ++ 32#8 ++ BitVec.ofNat 8 s.build.keyBytesMax ++ BitVec.ofNat 8 s.build.rMax ∧
    busRead s 0x02 = 0#32 ∧
    busRead s 0x03 = 0#8 ++ s.status.errOp ++ s.status.activeOp ++ s.status.schedR ++ 0#1 ++ s.status.errCode.code
      ++ BitVec.ofBool s.status.keyValid ++ BitVec.ofBool s.status.err ++ BitVec.ofBool s.status.done ++ BitVec.ofBool s.status.busy ∧
    busRead s 0x04 = 0#30 ++ BitVec.ofBool s.irqEn.errIE ++ BitVec.ofBool s.irqEn.doneIE ∧
    busRead s 0x05 = 0#24 ++ s.cfg ∧
    busRead s 0x06 = 0#24 ++ s.keylen ∧
    busRead s 0x08 = s.din.a ∧ busRead s 0x09 = s.din.b ∧ busRead s 0x0A = s.din.c ∧ busRead s 0x0B = s.din.d ∧
    busRead s 0x0C = s.dout.a ∧ busRead s 0x0D = s.dout.b ∧ busRead s 0x0E = s.dout.c ∧ busRead s 0x0F = s.dout.d ∧
    (∀ k, k < s.build.cMax → busRead s (BitVec.ofNat 7 (0x40 + k)) = 0#32) ∧
    (∀ a : Addr, a = 0x07 ∨ (0x10 ≤ a.toNat ∧ a.toNat < 0x40) ∨ 0x40 + s.build.cMax ≤ a.toNat → busRead s a = 0#32) ∧
    (∀ (a : Addr) (rest : List Pins), ∃ t : State,
      step { s with script := Access.pins .idle :: rest } = .next { t with rdata := 0 } ∧
      step { s with script := Access.pins (.read a) :: rest } = .next { t with rdata := busRead s a })

/-- Rule R25, rule R201: each field of STATUS stands at its bits of the word read, the reserved bits read 0, and the error codes are NONE 0,
CONFIG 1, NOKEY 2, BUSY 3, BADCMD 4 and SHAPE 5. -/
def Obligations.StatusFieldsStandAtTheirBits : Prop :=
  (ErrCode.none.code = 0#3 ∧ ErrCode.config.code = 1#3 ∧ ErrCode.noKey.code = 2#3 ∧ ErrCode.busy.code = 3#3 ∧
    ErrCode.badCmd.code = 4#3 ∧ ErrCode.shape.code = 5#3) ∧
  ∀ st : Status,
    st.word.getLsbD 0 = st.busy ∧ st.word.getLsbD 1 = st.done ∧ st.word.getLsbD 2 = st.err ∧ st.word.getLsbD 3 = st.keyValid ∧
    st.word.extractLsb' 4 3 = st.errCode.code ∧ st.word.getLsbD 7 = false ∧ st.word.extractLsb' 8 8 = st.schedR ∧
    st.word.extractLsb' 16 4 = st.activeOp ∧ st.word.extractLsb' 20 4 = st.errOp ∧ st.word.extractLsb' 24 8 = 0#8

/-! ## The clock cycle -/

/-- Rule R236: a CMD write whose word decodes to a command runs exec of that command at the state of the start of the cycle; around it the
step applies the FSM tick of the cycle and uses up its pins. The same of the table's word placed by `withFetchWord`. -/
def Obligations.StepRunsTheDecodedCommand : Prop :=
  (∀ (s : State) (v : Word) (rest : List Pins) (i : Instr),
    s.script = Access.pins (.write 0x02 v) :: rest → decode v = .ok i →
    ∃ sb, exec i s = .next sb ∧ step s = .next { tick s sb with script := rest, rdata := 0 }) ∧
  (∀ (s : State) (nbits w : Nat) (i : Instr), decodeTableWord nbits w = some i →
    ∃ sb, exec i (s.withFetchWord nbits w) = .next sb ∧
      step (s.withFetchWord nbits w) = .next { tick (s.withFetchWord nbits w) sb with script := s.script, rdata := 0 })

/-- Rule R236: outside reset, the bus effects and the FSM tick of a cycle do not meet. While the FSM runs, a cycle leaves the host's
registers DIN, KEY, CFG, KEYLEN, IRQ_EN and the error record as the access alone would, and everything else but DONE as an idle cycle
would. In IDLE it leaves all of the state as the access alone would. -/
def Obligations.BusEffectsAndTickAreDisjoint : Prop :=
  ∀ (s sb : State) (p : Pins) (rest : List Pins), s.Wf → s.script = p :: rest → p.rstN = true → busEffects s p.access = .next sb →
    ∃ t u, step s = .next t ∧ step { s with script := Access.pins .idle :: rest } = .next u ∧
      (s.fsm = .idle → t = { sb with script := rest, rdata := t.rdata }) ∧
      (s.fsm ≠ .idle → t.SameCommand u ∧
        t.din = sb.din ∧ t.key = sb.key ∧ t.cfg = sb.cfg ∧ t.keylen = sb.keylen ∧ t.irqEn = sb.irqEn ∧
        t.status.err = sb.status.err ∧ t.status.errCode = sb.status.errCode ∧ t.status.errOp = sb.status.errOp)

/-- Rule R237: set wins. A completion tick leaves DONE = 1 whatever the host does in its cycle, a W1C of DONE included; a W1C of DONE in any
other cycle leaves DONE = 0, so that DONE = 1 after it means a new completion. -/
def Obligations.CompletionBeatsClearOfDone : Prop :=
  ∀ (s : State) (p : Pins) (rest : List Pins), s.script = p :: rest → p.rstN = true →
    (s.fsm.completes = true →
      ∃ t, step s = .next t ∧ t.status.done = true ∧ t.status.busy = false ∧ t.fsm = .idle) ∧
    (∀ v, p.access = .write 0x03 v → v.getLsbD 1 = true → s.fsm.completes = false →
      ∃ t, step s = .next t ∧ t.status.done = false)

/-- Rule R221, rule R193: while the FSM is in IDLE, a cycle without a host write changes no state but the model's record of the bus. -/
def Obligations.IdleEngineChangesNothing : Prop :=
  ∀ (s : State) (p : Pins) (rest : List Pins), s.script = p :: rest → p.rstN = true → s.fsm = .idle →
    (∀ a v, p.access ≠ .write a v) → ∃ w, step s = .next { s with script := rest, rdata := w }

/-- Rule R230, rule R232, rule R233, rule R44: a cycle with `rst_n` = 0, whatever its access and whatever the FSM was doing, leaves every
register with a stated reset value at it, reads 0 on the bus and lowers irq; the state after it does not depend on the access. -/
def Obligations.ResetEdgeLoadsResetValues : Prop :=
  ∀ (s : State) (p : Pins) (rest : List Pins), s.script = p :: rest → p.rstN = false →
    ∃ t, step s = .next t ∧
      t.status.word = 0x00000000#32 ∧ t.irqEn.word = 0x00000000#32 ∧ t.cfg = 0x14#8 ∧ t.keylen = 0x10#8 ∧
      t.din = ⟨0, 0, 0, 0⟩ ∧ t.dout = ⟨0, 0, 0, 0⟩ ∧ t.key = List.replicate s.build.cMax 0#32 ∧ t.fsm = .idle ∧
      irq t = false ∧ t.rdata = 0#32 ∧ t.build = s.build ∧ t.script = rest ∧
      (∀ q : Pins, q.rstN = false → step { s with script := q :: rest } = .next t)

/-- Rule R44: the registers with a stated reset value hold it at State.reset. (The build is log entry 1, the rest of the state log entry 6.) -/
def Obligations.ResetStateHoldsTheStatedValues : Prop :=
  busRead State.reset 0x00 = 0x52433601#32 ∧ busRead State.reset 0x01 = 0x05202014#32 ∧ busRead State.reset 0x03 = 0x00000000#32 ∧
  busRead State.reset 0x04 = 0x00000000#32 ∧ busRead State.reset 0x05 = 0x00000014#32 ∧ busRead State.reset 0x06 = 0x00000010#32 ∧
  State.reset.din = ⟨0, 0, 0, 0⟩ ∧ State.reset.dout = ⟨0, 0, 0, 0⟩ ∧ State.reset.key = List.replicate 8 0#32 ∧
  State.reset.fsm = .idle ∧ irq State.reset = false

/-! ## Register writes -/

/-- Rule R187: a CFG or KEYLEN write stores its low 8 bits, changes nothing else, and reads back zero-extended. -/
def Obligations.CfgAndKeylenStoreTheirLowByte : Prop :=
  ∀ (s : State) (v : Word),
    busEffects s (.write 0x05 v) = .next { s with cfg := v.extractLsb' 0 8 } ∧
    busEffects s (.write 0x06 v) = .next { s with keylen := v.extractLsb' 0 8 } ∧
    busRead { s with cfg := v.extractLsb' 0 8 } 0x05 = v &&& 0x000000FF#32 ∧
    busRead { s with keylen := v.extractLsb' 0 8 } 0x06 = v &&& 0x000000FF#32

/-- Rule R188: an IRQ_EN write stores bits 0 and 1 as DONE_IE and ERR_IE, changes nothing else, and enabling a pending flag raises irq. -/
def Obligations.IrqEnStoresItsTwoBits : Prop :=
  ∀ (s : State) (v : Word),
    busEffects s (.write 0x04 v) = .next { s with irqEn := ⟨v.getLsbD 0, v.getLsbD 1⟩ } ∧
    busRead { s with irqEn := ⟨v.getLsbD 0, v.getLsbD 1⟩ } 0x04 = v &&& 0x00000003#32 ∧
    (irq { s with irqEn := ⟨v.getLsbD 0, v.getLsbD 1⟩ }
      = ((s.status.done && v.getLsbD 0) || (s.status.err && v.getLsbD 1)))

/-- Rule R185, rule R186: a DINq write stores the whole word, which reads back; a KEYk write stores the whole word in KEYk alone, and every
KEY address still reads 0. Both in every state, BUSY = 1 included, and nothing else changes. -/
def Obligations.DinAndKeyStoreTheWholeWord : Prop :=
  (∀ (s : State) (q : Fin 4) (v : Word), ∃ t,
    busEffects s (.write (BitVec.ofNat 7 (0x08 + q.val)) v) = .next t ∧
    t = { s with din := t.din } ∧ t.din.get q = v ∧ (∀ q', q' ≠ q → t.din.get q' = s.din.get q') ∧
    busRead t (BitVec.ofNat 7 (0x08 + q.val)) = v) ∧
  (∀ (s : State) (k : Nat) (v : Word), s.Wf → k < s.build.cMax → ∃ t,
    busEffects s (.write (BitVec.ofNat 7 (0x40 + k)) v) = .next t ∧
    t = { s with key := t.key } ∧ t.key[k]? = some v ∧ (∀ k', k' ≠ k → t.key[k']? = s.key[k']?) ∧
    busRead t (BitVec.ofNat 7 (0x40 + k)) = 0#32)

/-- Rule R190: a write to ID, PARAM, DOUT0..DOUT3 or a reserved address is ignored. -/
def Obligations.WritesToReadOnlyAndReservedAreIgnored : Prop :=
  ∀ (s : State) (a : Addr) (v : Word),
    (a = 0x00 ∨ a = 0x01 ∨ (0x0C ≤ a.toNat ∧ a.toNat ≤ 0x0F) ∨ a = 0x07 ∨ (0x10 ≤ a.toNat ∧ a.toNat < 0x40) ∨
      0x40 + s.build.cMax ≤ a.toNat) →
    busEffects s (.write a v) = .next s

/-- Rule R189: a STATUS write clears DONE with bit 1, and ERR with its code and opcode with bit 2; all other bits are ignored. -/
def Obligations.StatusWriteClearsDoneAndErr : Prop :=
  ∀ (s : State) (v : Word),
    busEffects s (.write 0x03 v) = .next { s with status := { s.status with
      done := s.status.done && !v.getLsbD 1
      err := s.status.err && !v.getLsbD 2
      errCode := if v.getLsbD 2 then .none else s.status.errCode
      errOp := if v.getLsbD 2 then 0#4 else s.status.errOp } }

/-! ## Command acceptance and rejection -/

/-- Rule R183: NOP writes no state, in any state, for every command word whose low 4 bits are 0. -/
def Obligations.NopChangesNothing : Prop :=
  (∀ s : State, exec .nop s = .next s) ∧
  (∀ (s : State) (v : Word), v.extractLsb' 0 4 = 0#4 → commandWrite v s = .next s)

/-- Rule R121, rule R122, rule R123: an idle engine accepts a KEYGEN with a legal configuration, latches its inputs and changes nothing else;
with any other configuration it rejects it with CONFIG, code 1 (rule R202), and changes nothing but the error record. -/
def Obligations.KeygenIsAcceptedAndLatchesItsInputs : Prop :=
  ErrCode.config.code = 1#3 ∧
  ∀ s : State, s.status.busy = false →
    (1 ≤ s.cfg.toNat ∧ s.cfg.toNat ≤ s.build.rMax ∧ s.keylen.toNat ≤ s.build.keyBytesMax →
      exec .keygen s = .next { s with
        RL := s.cfg
        CL := max 1 ((s.keylen.toNat + 3) / 4)
        NL := 2 * s.cfg.toNat + 4
        VL := 3 * max (max 1 ((s.keylen.toNat + 3) / 4)) (2 * s.cfg.toNat + 4)
        L := loadL s.build.cMax s.key s.keylen.toNat
        KA := 0, KB := 0, SI := 0, LJ := 0, KN := 0
        status := { s.status with keyValid := false, schedR := 0, busy := true, done := false, activeOp := 0x1 }
        fsm := .kgP1 }) ∧
    (¬(1 ≤ s.cfg.toNat ∧ s.cfg.toNat ≤ s.build.rMax ∧ s.keylen.toNat ≤ s.build.keyBytesMax) →
      exec .keygen s = .next { s with status := { s.status with err := true, errCode := .config, errOp := 0x1 } })

/-- Rule R150: an idle engine with a key accepts an ENCRYPT: it latches the block and changes nothing else but STATUS and the FSM; without a
key it rejects it with NOKEY, code 2 (rule R203). -/
def Obligations.EncryptIsAcceptedAndLatchesTheBlock : Prop :=
  ErrCode.noKey.code = 2#3 ∧
  ∀ s : State, s.status.busy = false →
    (s.status.keyValid = true →
      exec .encrypt s = .next { s with
        WA := s.din.a, WB := s.din.b, WC := s.din.c, WD := s.din.d
        status := { s.status with busy := true, done := false, activeOp := 0x2 }
        fsm := .enPre }) ∧
    (s.status.keyValid = false →
      exec .encrypt s = .next { s with status := { s.status with err := true, errCode := .noKey, errOp := 0x2 } })

/-- Rule R157: an idle engine with a key accepts a DECRYPT: it latches the block and changes nothing else but STATUS and the FSM; without a
key it rejects it with NOKEY, code 2 (rule R203). -/
def Obligations.DecryptIsAcceptedAndLatchesTheBlock : Prop :=
  ErrCode.noKey.code = 2#3 ∧
  ∀ s : State, s.status.busy = false →
    (s.status.keyValid = true →
      exec .decrypt s = .next { s with
        WA := s.din.a, WB := s.din.b, WC := s.din.c, WD := s.din.d
        status := { s.status with busy := true, done := false, activeOp := 0x3 }
        fsm := .dePre }) ∧
    (s.status.keyValid = false →
      exec .decrypt s = .next { s with status := { s.status with err := true, errCode := .noKey, errOp := 0x3 } })

/-- Rule R136: an idle engine accepts a CLRKEY, with or without a key: KEY is zeroed, the cipher instance ends, and nothing else changes but
STATUS, SI and the FSM. -/
def Obligations.ClrkeyIsAcceptedAndZeroesKey : Prop :=
  ∀ s : State, s.status.busy = false →
    exec .clrkey s = .next { s with
      key := List.replicate s.build.cMax 0#32
      SI := 0
      status := { s.status with keyValid := false, schedR := 0, busy := true, done := false, activeOp := 0x4 }
      fsm := .ckClr }

/-- Rule R208, rule R206: the one error a CMD write reports, in the order BADCMD, BUSY, CONFIG or NOKEY; the rejected write changes the three
error fields and nothing else, and a write that none of these applies to changes no error field. -/
def Obligations.RejectionPriorityAndEffect : Prop :=
  ∀ (s : State) (v : Word),
    let op := v.extractLsb' 0 4
    let rejected := fun c => commandWrite v s = .next { s with status := { s.status with err := true, errCode := c, errOp := op } }
    let configBad := s.cfg.toNat < 1 ∨ s.build.rMax < s.cfg.toNat ∨ s.build.keyBytesMax < s.keylen.toNat
    if op = 0 then commandWrite v s = .next s
    else if 5 ≤ op.toNat then rejected .badCmd
    else if s.status.busy = true then rejected .busy
    else if op = 1 ∧ configBad then rejected .config
    else if (op = 2 ∨ op = 3) ∧ s.status.keyValid = false then rejected .noKey
    else ∃ t, commandWrite v s = .next t ∧ t.status.busy = true ∧ t.status.done = false ∧ t.status.activeOp = op ∧
      t.status.err = s.status.err ∧ t.status.errCode = s.status.errCode ∧ t.status.errOp = s.status.errOp

/-- Rule R204, rule R241: a command other than NOP written while BUSY = 1, the completion cycle included, is rejected with BUSY; the cycle
otherwise ends as if the host had been idle, and the command is lost. BUSY is code 3. -/
def Obligations.CommandWhileBusyIsLost : Prop :=
  ErrCode.busy.code = 3#3 ∧
  ∀ (s : State) (i : Instr) (rest : List Pins), s.status.busy = true → i ≠ .nop →
    ∃ t, step { s with script := Access.pins .idle :: rest } = .next t ∧
      step { s with script := Access.pins (.write 0x02 (encode i)) :: rest }
        = .next { t with status := { t.status with err := true, errCode := .busy, errOp := i.op } }

/-! ## The FSM ticks -/

/-- Rule R128, rule R129, rule R130: the ticks of KEYGEN, in a cycle in which the host makes no access; each changes what its rule names and
nothing else. -/
def Obligations.KeygenTicks : Prop :=
  ∀ (s : State) (rest : List Pins), s.script = Access.pins .idle :: rest →
    (s.fsm = .kgP1 →
      step s = .next { s with
        S := s.S.set s.SI (Config.P + BitVec.ofNat 32 s.SI * Config.Q)
        SI := if s.SI = s.NL - 1 then 0 else s.SI + 1
        fsm := if s.SI = s.NL - 1 then .kgP2 else .kgP1
        script := rest, rdata := 0 }) ∧
    (s.fsm = .kgP2 →
      let a := rol (wordAt s.S s.SI + s.KA + s.KB) 3
      let b' := rol (wordAt s.L s.LJ + a + s.KB) ((a + s.KB).toNat % 32)
      step s = .next { s with
        S := s.S.set s.SI a
        L := s.L.set s.LJ b'
        KA := a, KB := b'
        SI := (s.SI + 1) % s.NL
        LJ := (s.LJ + 1) % s.CL
        KN := s.KN + 1
        fsm := if s.KN = s.VL - 1 then .kgFin else .kgP2
        script := rest, rdata := 0 }) ∧
    (s.fsm = .kgFin →
      step s = .next { s with
        status := { s.status with keyValid := true, schedR := s.RL, busy := false, done := true }
        L := List.replicate s.build.cMax 0#32
        KA := 0, KB := 0
        fsm := .idle
        script := rest, rdata := 0 })

/-- Rule R152, rule R153, rule R154: the ticks of ENCRYPT, in a cycle in which the host makes no access; each changes what its rule names and
nothing else. -/
def Obligations.EncryptTicks : Prop :=
  ∀ (s : State) (rest : List Pins), s.script = Access.pins .idle :: rest →
    let r := s.status.schedR.toNat
    (s.fsm = .enPre →
      step s = .next { s with
        WB := s.WB + wordAt s.S 0, WD := s.WD + wordAt s.S 1, RI := 1, fsm := .enRnd, script := rest, rdata := 0 }) ∧
    (s.fsm = .enRnd →
      let t := rol (s.WB * (2 * s.WB + 1)) 5
      let u := rol (s.WD * (2 * s.WD + 1)) 5
      step s = .next { s with
        WA := s.WB
        WB := rol (s.WC ^^^ u) (t.toNat % 32) + wordAt s.S (2 * s.RI + 1)
        WC := s.WD
        WD := rol (s.WA ^^^ t) (u.toNat % 32) + wordAt s.S (2 * s.RI)
        RI := s.RI + 1
        fsm := if s.RI = r then .enFin else .enRnd
        script := rest, rdata := 0 }) ∧
    (s.fsm = .enFin →
      step s = .next { s with
        dout := ⟨s.WA + wordAt s.S (2 * r + 2), s.WB, s.WC + wordAt s.S (2 * r + 3), s.WD⟩
        status := { s.status with busy := false, done := true }
        fsm := .idle
        script := rest, rdata := 0 })

/-- Rule R159, rule R160, rule R161: the ticks of DECRYPT, in a cycle in which the host makes no access; each changes what its rule names and
nothing else. -/
def Obligations.DecryptTicks : Prop :=
  ∀ (s : State) (rest : List Pins), s.script = Access.pins .idle :: rest →
    let r := s.status.schedR.toNat
    (s.fsm = .dePre →
      step s = .next { s with
        WC := s.WC - wordAt s.S (2 * r + 3), WA := s.WA - wordAt s.S (2 * r + 2), RI := r, fsm := .deRnd
        script := rest, rdata := 0 }) ∧
    (s.fsm = .deRnd →
      let u := rol (s.WC * (2 * s.WC + 1)) 5
      let t := rol (s.WA * (2 * s.WA + 1)) 5
      step s = .next { s with
        WA := ror (s.WD - wordAt s.S (2 * s.RI)) (u.toNat % 32) ^^^ t
        WB := s.WA
        WC := ror (s.WB - wordAt s.S (2 * s.RI + 1)) (t.toNat % 32) ^^^ u
        WD := s.WC
        RI := s.RI - 1
        fsm := if s.RI = 1 then .deFin else .deRnd
        script := rest, rdata := 0 }) ∧
    (s.fsm = .deFin →
      step s = .next { s with
        dout := ⟨s.WA, s.WB - wordAt s.S 0, s.WC, s.WD - wordAt s.S 1⟩
        status := { s.status with busy := false, done := true }
        fsm := .idle
        script := rest, rdata := 0 })

/-- Rule R137, rule R138: the ticks of CLRKEY, in a cycle in which the host makes no access; each changes what its rule names and nothing
else. -/
def Obligations.ClrkeyTicks : Prop :=
  ∀ (s : State) (rest : List Pins), s.script = Access.pins .idle :: rest →
    (s.fsm = .ckClr →
      step s = .next { s with
        S := s.S.set s.SI 0#32
        SI := if s.SI = 2 * s.build.rMax + 3 then s.SI else s.SI + 1
        fsm := if s.SI = 2 * s.build.rMax + 3 then .ckFin else .ckClr
        script := rest, rdata := 0 }) ∧
    (s.fsm = .ckFin →
      step s = .next { s with
        status := { s.status with busy := false, done := true }
        L := List.replicate s.build.cMax 0#32
        KA := 0, KB := 0
        fsm := .idle
        script := rest, rdata := 0 })

/-! ## Whole commands -/

/-- Rule R131, rule R47, rule R74: a KEYGEN accepted in cycle 0 of an idle engine, whatever the host does in the cycles after it short of a
reset, completes, and then S[0..n-1] is KeySchedule(K, b, r) of the key bytes, the length and the round count that the registers held at
its acceptance; the entries of S above n-1 and DOUT are as before, L, KA and KB are 0, and until then BUSY was 1 and KEY_VALID 0. -/
def Obligations.KeygenComputesTheKeySchedule : Prop :=
  ∀ (s : State) (p : Pins) (rest : List Pins), s.Wf → s.NoReset → s.script = p :: rest → commands s.build .keygen p →
    s.fsm = .idle → 1 ≤ s.cfg.toNat → s.cfg.toNat ≤ s.build.rMax → s.keylen.toNat ≤ s.build.keyBytesMax →
    ∃ (N : Nat) (t : State), runCycles (N + 1) s = .next t ∧
      (∀ k, 1 ≤ k → k ≤ N → ∃ u, runCycles k s = .next u ∧ u.status.busy = true ∧ u.status.keyValid = false ∧ u.dout = s.dout) ∧
      t.S.take (2 * s.cfg.toNat + 4) = keySchedule (keyBytes s.key s.keylen.toNat) s.cfg.toNat ∧
      t.S.drop (2 * s.cfg.toNat + 4) = s.S.drop (2 * s.cfg.toNat + 4) ∧
      t.L = List.replicate s.build.cMax 0#32 ∧ t.KA = 0 ∧ t.KB = 0 ∧
      t.status.keyValid = true ∧ t.status.schedR = s.cfg ∧ t.status.busy = false ∧ t.status.done = true ∧
      t.status.activeOp = 0x1 ∧ t.fsm = .idle ∧ t.dout = s.dout

/-- Rule R150, rule R151, rule R70: an ENCRYPT accepted in cycle 0 of an idle engine that holds a key, whatever the host does in the cycles
after it short of a reset, completes, and then DOUT is Encrypt of the block that DIN held at its acceptance, under S[0..2r+3] and
r = SCHED_R alone (rule R167, rule R168); S and the instance are as before, and until then BUSY was 1 and DOUT was the previous result. -/
def Obligations.EncryptComputesTheCiphertext : Prop :=
  ∀ (s : State) (p : Pins) (rest : List Pins), s.Wf → s.NoReset → s.script = p :: rest → commands s.build .encrypt p →
    s.fsm = .idle → s.status.keyValid = true →
    ∃ (N : Nat) (t : State), runCycles (N + 1) s = .next t ∧
      (∀ k, 1 ≤ k → k ≤ N → ∃ u, runCycles k s = .next u ∧ u.status.busy = true ∧ u.dout = s.dout ∧ u.S = s.S) ∧
      t.dout = encryptBlock (s.S.take (2 * s.status.schedR.toNat + 4)) s.status.schedR.toNat s.din ∧
      t.S = s.S ∧ t.L = s.L ∧ t.status.keyValid = true ∧ t.status.schedR = s.status.schedR ∧
      t.status.busy = false ∧ t.status.done = true ∧ t.status.activeOp = 0x2 ∧ t.fsm = .idle

/-- Rule R157, rule R158, rule R70: the same of DECRYPT. -/
def Obligations.DecryptComputesThePlaintext : Prop :=
  ∀ (s : State) (p : Pins) (rest : List Pins), s.Wf → s.NoReset → s.script = p :: rest → commands s.build .decrypt p →
    s.fsm = .idle → s.status.keyValid = true →
    ∃ (N : Nat) (t : State), runCycles (N + 1) s = .next t ∧
      (∀ k, 1 ≤ k → k ≤ N → ∃ u, runCycles k s = .next u ∧ u.status.busy = true ∧ u.dout = s.dout ∧ u.S = s.S) ∧
      t.dout = decryptBlock (s.S.take (2 * s.status.schedR.toNat + 4)) s.status.schedR.toNat s.din ∧
      t.S = s.S ∧ t.L = s.L ∧ t.status.keyValid = true ∧ t.status.schedR = s.status.schedR ∧
      t.status.busy = false ∧ t.status.done = true ∧ t.status.activeOp = 0x3 ∧ t.fsm = .idle

/-- Rule R136, rule R138: a CLRKEY accepted in cycle 0 of an idle engine, whatever the host does in the cycles after it short of a reset,
completes, and then every entry of S and of L is 0, KA and KB are 0 and there is no instance; every KEY register is 0 too, unless the host
wrote one after the acceptance. -/
def Obligations.ClrkeyZeroesTheKeyState : Prop :=
  ∀ (s : State) (p : Pins) (rest : List Pins), s.Wf → s.NoReset → s.script = p :: rest → commands s.build .clrkey p →
    s.fsm = .idle →
    ∃ (N : Nat) (t : State), runCycles (N + 1) s = .next t ∧
      (∀ k, 1 ≤ k → k ≤ N → ∃ u, runCycles k s = .next u ∧ u.status.busy = true ∧ u.status.keyValid = false ∧ u.dout = s.dout) ∧
      t.S = List.replicate (2 * s.build.rMax + 4) 0#32 ∧ t.L = List.replicate s.build.cMax 0#32 ∧ t.KA = 0 ∧ t.KB = 0 ∧
      ((∀ q ∈ rest, writesKey s.build q = false) → t.key = List.replicate s.build.cMax 0#32) ∧
      t.status.keyValid = false ∧ t.status.schedR = 0 ∧ t.status.busy = false ∧ t.status.done = true ∧
      t.status.activeOp = 0x4 ∧ t.fsm = .idle ∧ t.dout = s.dout

/-- Rule R192: the number of FSM ticks of each command, hence of cycles with BUSY = 1, is fixed at its acceptance by (r, b) for a KEYGEN, by
SCHED_R for a transform and by R_MAX for a CLRKEY; no data and no host access changes it. It rests on the reference latency, log entry 7. -/
def Obligations.CommandsTakeTheReferenceTicks : Prop :=
  ∀ (s u : State) (p : Pins) (rest : List Pins) (i : Instr) (k : Nat), s.Wf → s.NoReset → s.script = p :: rest →
    commands s.build i p → s.fsm = .idle → step s = .next u → u.status.busy = true →
    let r := s.cfg.toNat
    let ticks := match i with
      | .nop => 0
      | .keygen => (2 * r + 4) + 3 * max (max 1 ((s.keylen.toNat + 3) / 4)) (2 * r + 4) + 1
      | .encrypt => s.status.schedR.toNat + 2
      | .decrypt => s.status.schedR.toNat + 2
      | .clrkey => 2 * s.build.rMax + 5
    k ≤ ticks → ∃ t, runCycles k u = .next t ∧ (t.status.busy = true ↔ k < ticks)

/-- Rule R243: every accepted command completes within a finite number of cycles fixed at its acceptance, whatever the host does meanwhile,
unless reset intervenes: N depends on the state of the engine and not on the cycles to come. -/
def Obligations.AcceptedCommandsComplete : Prop :=
  ∀ s : State, s.Wf → s.status.busy = true → ∃ N, 1 ≤ N ∧ ∀ script : List Pins, (∀ p ∈ script, p.rstN = true) →
    (∀ k, k < N → ∃ u, runCycles k { s with script := script } = .next u ∧ u.status.busy = true) ∧
    ∃ t, runCycles N { s with script := script } = .next t ∧ t.status.busy = false ∧ t.status.done = true

/-! ## The pure functions -/

/-- Rule R164: Decrypt and Encrypt are inverse to each other, for every S, every r and every block. -/
def Obligations.EncryptAndDecryptAreInverse : Prop :=
  ∀ (S : List Word) (r : Nat) (x : Block),
    decryptBlock S r (encryptBlock S r x) = x ∧ encryptBlock S r (decryptBlock S r x) = x

/-- Rule R104, rule R103: the rotations by their shift formulas, with k = n mod 32, and the left rotation by the right one. -/
def Obligations.RotationsAreTheirShiftFormulas : Prop :=
  ∀ (x : Word) (n : Nat),
    rol x n = ror x ((32 - n % 32) % 32) ∧
    (n % 32 = 0 → rol x n = x ∧ ror x n = x) ∧
    (n % 32 ≠ 0 → rol x n = (x <<< (n % 32)) ||| (x >>> (32 - n % 32)) ∧ ror x n = (x >>> (n % 32)) ||| (x <<< (32 - n % 32)))

/-- Rule R106: the rotation laws. -/
def Obligations.RotationLaws : Prop :=
  ∀ (x : Word) (n a b : Nat),
    rol (ror x n) n = x ∧ ror (rol x n) n = x ∧ rol x n = rol x (n % 32) ∧ rol x 0 = x ∧ ror x 0 = x ∧
    (a < 32 → b < 32 → rol x (a + b) = rol (rol x a) b)

/-- Rule R125, rule R9, rule R107: phase 1 gives n = 2r + 4 entries; the first is P = 0xB7E15163, each other one is the one before it plus
Q = 0x9E3779B9, and entry i is ROM[i] = P + i·Q. -/
def Obligations.PhaseOneIsTheRomTable : Prop :=
  Config.P = 0xB7E15163#32 ∧ Config.Q = 0x9E3779B9#32 ∧
  ∀ r : Nat,
    (expand (2 * r + 4)).length = 2 * r + 4 ∧ (expand (2 * r + 4))[0]? = some Config.P ∧
    (∀ i, 1 ≤ i → i < 2 * r + 4 →
      ∃ x, (expand (2 * r + 4))[i - 1]? = some x ∧ (expand (2 * r + 4))[i]? = some (x + Config.Q)) ∧
    (∀ i, i < 2 * r + 4 → (expand (2 * r + 4))[i]? = some (rom i) ∧ rom i = 0xB7E15163#32 + BitVec.ofNat 32 i * 0x9E3779B9#32)

/-- Rule R66: the word of four bytes as a sum, and its bytes read back. -/
def Obligations.WordsAreLittleEndian : Prop :=
  ∀ b0 b1 b2 b3 : Byte,
    leWord b0 b1 b2 b3
      = b0.setWidth 32 + 2 ^ 8 * b1.setWidth 32 + 2 ^ 16 * b2.setWidth 32 + 2 ^ 24 * b3.setWidth 32 ∧
    wordBytes (leWord b0 b1 b2 b3) = [b0, b1, b2, b3]

/-- Rule R112, rule R109, rule R110: the word codec. Words survive the trip through bytes; bytes survive the trip through words exactly when
their number is a multiple of 4 and not 0; there are c = max(1, ceil(b/4)) words, and the empty key is one zero word. -/
def Obligations.WordCodecInverse : Prop :=
  (∀ ws : List Word, ws ≠ [] → bytesToWords (wordsToBytes ws) = ws) ∧
  (∀ bs : List Byte, wordsToBytes (bytesToWords bs) = bs ↔ bs.length % 4 = 0 ∧ bs ≠ []) ∧
  (∀ bs : List Byte, (bytesToWords bs).length = max 1 ((bs.length + 3) / 4)) ∧
  bytesToWords [] = [0#32] ∧
  (∀ x : Block, blockOfBytes (bytesOfBlock x) = x) ∧
  (∀ bs : List Byte, bs.length = 16 → bytesOfBlock (blockOfBytes bs) = bs)

/-- Rule R123: the masked load of L, byte by byte, and that its first c words are the word-packing of the first b key bytes. -/
def Obligations.MaskedLoadIsTheWordPacking : Prop :=
  ∀ (key : List Word) (b : Nat),
    (∀ j m, j < key.length → m < 4 →
      byteOf (wordAt (loadL key.length key b) j) m = if 4 * j + m < b then byteOf (wordAt key j) m else 0#8) ∧
    (b ≤ 4 * key.length → 1 ≤ key.length → (loadL key.length key b).take (keyWordCount b) = bytesToWords (keyBytes key b))

/-- Rule R127, rule R134: KeySchedule gives 2r+4 words; and the keys of 0 to 4 zero bytes all give the same table. -/
def Obligations.KeyScheduleShape : Prop :=
  (∀ (K : List Byte) (r : Nat), (keySchedule K r).length = 2 * r + 4) ∧
  (∀ r k, k ≤ 4 → keySchedule (List.replicate k 0#8) r = keySchedule [] r)

/-! ## Invariants and whole-machine rules -/

/-- State.reset meets both invariants. (The build is log entry 1, the unspecified values log entry 6: the state is the model's.) -/
def Obligations.ResetStateMeetsTheInvariants : Prop :=
  State.reset.Wf ∧ State.reset.TableInv

/-- Rule R41, rule R38, rule R25: every step keeps the control state well formed: BUSY is 1 exactly when fsm is not IDLE, STATUS is coherent,
the cursors stay within the bounds of their loops and the arrays keep their lengths. -/
def Obligations.StepKeepsTheControlWellFormed : Prop :=
  ∀ s t : State, s.Wf → step s = .next t → t.Wf

/-- Rule R47, rule R45: every step keeps the cipher-table invariant: while KEY_VALID = 1, S[0..2r+3] is the key schedule of a key of a legal
length for r = SCHED_R, never a partial table. -/
def Obligations.StepKeepsTheCipherTable : Prop :=
  ∀ s t : State, s.Wf → s.TableInv → step s = .next t → t.TableInv

/-- Rule R140: between a KEYGEN completion and the next KEYGEN acceptance, CLRKEY acceptance or reset no step writes S[0..2r+3], SCHED_R or
KEY_VALID: a step from a state with a valid key, in a cycle that is none of these, leaves them as they are. -/
def Obligations.CipherTableIsImmutable : Prop :=
  ∀ (s : State) (p : Pins) (rest : List Pins), s.Wf → s.status.keyValid = true → s.script = p :: rest → p.rstN = true →
    ¬(s.status.busy = false ∧ commands s.build .keygen p ∧
        1 ≤ s.cfg.toNat ∧ s.cfg.toNat ≤ s.build.rMax ∧ s.keylen.toNat ≤ s.build.keyBytesMax) →
    ¬(s.status.busy = false ∧ commands s.build .clrkey p) →
    ∃ t, step s = .next t ∧ t.S = s.S ∧ t.status.schedR = s.status.schedR ∧ t.status.keyValid = true

/-- Rule R40: KEY_VALID becomes 1 only by the completion tick of a KEYGEN. -/
def Obligations.KeyValidIsSetOnlyByKeygenCompletion : Prop :=
  ∀ s t : State, step s = .next t → s.status.keyValid = false →
    (t.status.keyValid = true ↔ s.fsm = .kgFin ∧ (nextPins s).rstN = true)

/-- Rule R30, rule R70, rule R209: DOUT changes only in the completion tick of an ENCRYPT or a DECRYPT, or by reset, and then all of it. -/
def Obligations.OutputChangesOnlyAtCompletion : Prop :=
  ∀ s t : State, step s = .next t →
    t.dout = s.dout ∨ ((nextPins s).rstN = false ∧ t.dout = Block.zero) ∨
    ((nextPins s).rstN = true ∧ (s.fsm = .enFin ∨ s.fsm = .deFin) ∧ t.status.busy = false ∧ t.status.done = true)

/-- Rule R240, rule R74: from the cycle after its acceptance, no host access but a reset affects a running command: two states that agree
on what the command uses still do after a cycle, whatever the two hosts present in it. -/
def Obligations.HostAccessesDoNotAffectARunningCommand : Prop :=
  ∀ s s' t t' : State, s.Wf → s'.Wf → s.SameCommand s' → s.status.busy = true →
    (nextPins s).rstN = true → (nextPins s').rstN = true → step s = .next t → step s' = .next t' → t.SameCommand t'

/-- Rule R48, rule R216: key material and working data reach the host only through DOUT. From two states that differ in them alone, the same
cycle leads to two states that differ in them alone, and the host reads the same, unless the tick is the completion of a transform; then
only DOUT differs as well. -/
def Obligations.KeyMaterialReachesTheHostOnlyThroughOutput : Prop :=
  ∀ s s' t t' : State, s.SameButSecrets s' → step s = .next t → step s' = .next t' →
    t.rdata = t'.rdata ∧ irq t = irq t' ∧
    if (s.fsm = .enFin ∨ s.fsm = .deFin) ∧ (nextPins s).rstN = true then t.SameButSecrets { t' with dout := t.dout }
    else t.SameButSecrets t'

/-- Rule R45: no rule reads an unspecified value. From two reset states of one build that differ in the unspecified values alone, the same
host program shows the host the same registers, the same bus and the same irq after any number of cycles. -/
def Obligations.UnspecifiedResetValuesAreNeverSeen : Prop :=
  ∀ (b : Build) (u u' : Unspecified) (script : List Pins) (n k : Nat), b.wellFormed = true →
    u.S.length = b.sLen → u'.S.length = b.sLen → u.L.length = b.cMax → u'.L.length = b.cMax →
    ∃ t t', runCycles k (State.afterReset b u script n) = .next t ∧ runCycles k (State.afterReset b u' script n) = .next t' ∧
      t.SameRegisters t' ∧ t.fsm = t'.fsm ∧ irq t = irq t'

/-- Rule R245, rule R46: irq rises in the cycle after a completion tick with DONE_IE = 1, or after a rejection with ERR_IE = 1; it falls after
the write that clears or masks the last enabled pending flag, or after the acceptance of a command that clears DONE. -/
def Obligations.IrqFollowsDoneAndErr : Prop :=
  ∀ (s : State) (p : Pins) (rest : List Pins), s.script = p :: rest → p.rstN = true →
    (s.fsm.completes = true → s.irqEn.doneIE = true → (∀ v, p.access ≠ .write 0x04 v) → ∃ t, step s = .next t ∧ irq t = true) ∧
    (∀ v sb, p.access = .write 0x02 v → commandWrite v s = .next sb → s.irqEn.errIE = true →
      (∃ c o, sb = reject c o s) → ∃ t, step s = .next t ∧ irq t = true) ∧
    (∀ v, p.access = .write 0x03 v → s.fsm.completes = false →
      (s.status.done = true → s.irqEn.doneIE = true → v.getLsbD 1 = true) →
      (s.status.err = true → s.irqEn.errIE = true → v.getLsbD 2 = true) → ∃ t, step s = .next t ∧ irq t = false) ∧
    (∀ v, p.access = .write 0x04 v → s.fsm.completes = false →
      (s.status.done = true → v.getLsbD 0 = false) → (s.status.err = true → v.getLsbD 1 = false) →
      ∃ t, step s = .next t ∧ irq t = false) ∧
    (∀ v sb, p.access = .write 0x02 v → s.fsm = .idle → commandWrite v s = .next sb → sb.status.busy = true →
      s.status.busy = false → (s.status.err = true → s.irqEn.errIE = false) → ∃ t, step s = .next t ∧ irq t = false)

/-- Rule R89: the macros that write registers, in any state, after as many cycles as they make writes. `setblk` leaves the four words in DIN;
`setkey` leaves the low 8 bits of LEN in KEYLEN and the words in the first KEY registers (LEN is a whole 32-bit VALUE: DEDUCED, log entry 18);
`cmd` runs the command it names; `clrdone` clears DONE, `clrerr` the error record and `clrall` both, but that DONE is 1 after a completion
tick in the same cycle (rule R237). -/
def Obligations.HostMacrosWriteTheirRegisters : Prop :=
  (∀ (s : State) (x : Block), ∃ t,
    runCycles 4 { s with script := expandHostOp (.setblk x) } = .next t ∧ t.din = x ∧ t.key = s.key ∧ t.script = []) ∧
  (∀ (s : State) (len : Word) (ks : List Word), s.Wf → (HostOp.setkey len ks).wellFormed s.build = true → ∃ t,
    runCycles (ks.length + 1) { s with script := expandHostOp (.setkey len ks) } = .next t ∧
      t.keylen = len.extractLsb' 0 8 ∧ t.key = ks ++ s.key.drop ks.length ∧ t.din = s.din ∧ t.script = []) ∧
  (∀ (s : State) (i : Instr), ∃ sb,
    exec i { s with script := expandHostOp (.cmd i) } = .next sb ∧
    runCycles 1 { s with script := expandHostOp (.cmd i) }
      = .next { tick { s with script := expandHostOp (.cmd i) } sb with script := [], rdata := 0 }) ∧
  (∀ s : State, ∃ t, runCycles 1 { s with script := expandHostOp .clrdone } = .next t ∧ t.script = [] ∧
    t.status.done = s.fsm.completes ∧
    t.status.err = s.status.err ∧ t.status.errCode = s.status.errCode ∧ t.status.errOp = s.status.errOp) ∧
  (∀ s : State, ∃ t, runCycles 1 { s with script := expandHostOp .clrerr } = .next t ∧ t.script = [] ∧
    t.status.done = (s.status.done || s.fsm.completes) ∧
    t.status.err = false ∧ t.status.errCode = .none ∧ t.status.errOp = 0#4) ∧
  (∀ s : State, ∃ t, runCycles 1 { s with script := expandHostOp .clrall } = .next t ∧ t.script = [] ∧
    t.status.done = s.fsm.completes ∧ t.status.err = false ∧ t.status.errCode = .none ∧ t.status.errOp = 0#4)

/-- Rule R88, rule R90, rule R21: the word address of every register name decodes to the register it names, and of a byte offset is that
offset >> 2; `wr` and `rd` present the write and the read of that address; and the transaction words of the two are those of rule R90. -/
def Obligations.RegisterNamesReachTheirRegisters : Prop :=
  (∀ b : Build, b.wellFormed = true →
    decodeAddr b RegName.id.addr = .id ∧ decodeAddr b RegName.param.addr = .param ∧ decodeAddr b RegName.cmd.addr = .cmd ∧
    decodeAddr b RegName.status.addr = .status ∧ decodeAddr b RegName.irqEn.addr = .irqEn ∧
    decodeAddr b RegName.cfg.addr = .cfg ∧ decodeAddr b RegName.keylen.addr = .keylen ∧
    (∀ q : Fin 4, decodeAddr b (RegName.din q).addr = .din q ∧ decodeAddr b (RegName.dout q).addr = .dout q) ∧
    (∀ k, (RegName.key k).wellFormed b = true → decodeAddr b (RegName.key k).addr = .key k) ∧
    (∀ o, (RegName.offset o).wellFormed b = true → 4 * (RegName.offset o).addr.toNat = o)) ∧
  (∀ (r : RegName) (v : Word), ∃ p q, expandHostOp (.wr r v) = [p] ∧ p.rstN = true ∧ p.access = .write r.addr v ∧
    expandHostOp (.rd r) = [q] ∧ q.rstN = true ∧ q.access = .read r.addr) ∧
  (∀ (a : BitVec 8) (r : RegName) (v : Word),
    (r, a) ∈ [(.id, 0x00#8), (.param, 0x01#8), (.cmd, 0x02#8), (.status, 0x03#8), (.irqEn, 0x04#8), (.cfg, 0x05#8), (.keylen, 0x06#8),
      (.din 0, 0x08#8), (.din 1, 0x09#8), (.din 2, 0x0A#8), (.din 3, 0x0B#8),
      (.dout 0, 0x0C#8), (.dout 1, 0x0D#8), (.dout 2, 0x0E#8), (.dout 3, 0x0F#8)] ∨ (∃ k, k < 64 ∧ r = .key k ∧ a = BitVec.ofNat 8 (0x40 + k)) →
    encodeTransaction (.read r.addr) = some (a ++ 0#32) ∧ encodeTransaction (.write r.addr v) = some ((0x80#8 + a) ++ v))

/-- Rule R167, rule R168: a transform reads no entry of S above 2r+3: the result is a function of the block, S[0..2r+3] and r alone. -/
def Obligations.TransformsReadOnlyTheInstanceTable : Prop :=
  ∀ (S S' : List Word) (r : Nat) (x : Block), S.take (2 * r + 4) = S'.take (2 * r + 4) →
    encryptBlock S r x = encryptBlock S' r x ∧ decryptBlock S r x = decryptBlock S' r x
end

