-- ==== Sys2Proof/Laws/Decode.lean ====
section
/-! SUPPORT. Lemmas about the decoders. -/

namespace Sys2Proof

theorem opField_encodeWith (ignored : BitVec 28) (i : Instr) : opField (encodeWith ignored i) = i.op := by
  apply BitVec.eq_of_getLsbD_eq
  intro k hk
  simp only [opField, encodeWith, BitVec.getLsbD_extractLsb', BitVec.getLsbD_append, hk]
  simp [hk]

theorem decodeOp_op (i : Instr) : decodeOp i.op = some i := by cases i <;> rfl

/-- An opcode is a command's, or it is reserved. -/
theorem decodeOp_cases (op : BitVec 4) :
    (∃ i : Instr, op = i.op ∧ decodeOp op = some i) ∨ (5 ≤ op.toNat ∧ decodeOp op = none) := by
  have h : ∀ n : Fin 16, (∃ i : Instr, BitVec.ofFin n = i.op ∧ decodeOp (BitVec.ofFin n) = some i) ∨
      (5 ≤ n.val ∧ decodeOp (BitVec.ofFin n) = none) := by
    intro n
    fin_cases n
    · exact .inl ⟨.nop, rfl, rfl⟩
    · exact .inl ⟨.keygen, rfl, rfl⟩
    · exact .inl ⟨.encrypt, rfl, rfl⟩
    · exact .inl ⟨.decrypt, rfl, rfl⟩
    · exact .inl ⟨.clrkey, rfl, rfl⟩
    all_goals exact .inr ⟨by decide, rfl⟩
  exact h op.toFin

/-- The fields of a 40-bit word put together from them. -/
theorem transaction_fields (w : BitVec 1) (a : BitVec 7) (v : BitVec 32) :
    (w ++ a ++ v).extractLsb' 39 1 = w ∧ (w ++ a ++ v).extractLsb' 32 7 = a ∧ (w ++ a ++ v).extractLsb' 0 32 = v := by
  refine ⟨?_, ?_, ?_⟩ <;>
    (apply BitVec.eq_of_getLsbD_eq; intro i hi; simp only [BitVec.getLsbD_extractLsb', hi, BitVec.getLsbD_append])
  · simp [show i = 0 by omega]
  · simp [show ¬ 32 + i < 32 by omega, show 32 + i - 32 = i by omega, hi]
  · simp [hi]

/-- A 40-bit word is put together from its fields. -/
theorem transaction_split (t : Transaction) :
    t = t.extractLsb' 39 1 ++ t.extractLsb' 32 7 ++ t.extractLsb' 0 32 := by
  apply BitVec.eq_of_getLsbD_eq
  intro k hk
  simp only [BitVec.getLsbD_append, BitVec.getLsbD_extractLsb']
  by_cases h : k < 32
  · simp [h]
  · by_cases h' : k - 32 < 7
    · simp [h, h', show 32 + (k - 32) = k by omega]
    · simp [h, h', show k - 32 - 7 < 1 by omega, show 39 + (k - 32 - 7) = k by omega]

theorem Build.cMax_bounds {b : Build} (h : b.wellFormed = true) : 4 ≤ b.cMax ∧ b.cMax ≤ 64 := by
  simp [Build.wellFormed] at h
  unfold Build.cMax
  omega

theorem decodeAddr_key {b : Build} {k : Nat} (h : b.cMax ≤ 64) (hk : k < b.cMax) :
    decodeAddr b (BitVec.ofNat 7 (0x40 + k)) = .key k := by
  have hn : (BitVec.ofNat 7 (0x40 + k)).toNat = 0x40 + k := by rw [BitVec.toNat_ofNat]; omega
  unfold decodeAddr
  rw [hn]
  split <;> first | omega | skip
  rename_i hh
  rw [if_pos (by omega)]
  congr 1
  omega

theorem decodeAddr_reserved {b : Build} {a : Addr}
    (h : a = 0x07 ∨ (0x10 ≤ a.toNat ∧ a.toNat < 0x40) ∨ 0x40 + b.cMax ≤ a.toNat) : decodeAddr b a = .reserved := by
  unfold decodeAddr
  rcases h with rfl | h | h
  · simp
  · split <;> first | omega | skip
    rw [if_neg (by omega)]
  · split <;> first | omega | skip
    rw [if_neg (by omega)]

end Sys2Proof
end

