-- ==== Sys2Proof/Laws/PerInstr.lean ====
section
/-! SUPPORT. What holds of each command as notation, one lemma per constructor of Instr. -/

namespace Sys2Proof.Laws.Opcode

/-- A command is well formed, its opcode is one of the five of the opcode map, and the opcode selects it (spec/30_encoding.md rule R82). -/
def Statement (i : Instr) : Prop := i.wellFormed = true ∧ i.op.toNat ≤ 4 ∧ decodeOp i.op = some i

theorem nop : Statement .nop := ⟨rfl, by decide, rfl⟩
theorem keygen : Statement .keygen := ⟨rfl, by decide, rfl⟩
theorem encrypt : Statement .encrypt := ⟨rfl, by decide, rfl⟩
theorem decrypt : Statement .decrypt := ⟨rfl, by decide, rfl⟩
theorem clrkey : Statement .clrkey := ⟨rfl, by decide, rfl⟩

end Sys2Proof.Laws.Opcode
end

