-- ==== Sys2Proof/Laws/Primitives.lean ====
section
/-! SUPPORT. Lemmas about the datapath primitives and the arrays. -/

namespace Sys2Proof.Machine

/-- The amount input of a data-dependent rotator is its amount word modulo 32. -/
theorem rotAmount_eq_mod (u : Word) : rotAmount u = u.toNat % 32 := by
  simp [rotAmount, BitVec.extractLsb'_toNat]

/-- The right rotation is BitVec's. -/
theorem ror_eq_rotateRight (x : Word) (n : Nat) : ror x n = x.rotateRight n := by
  unfold ror
  rw [← BitVec.rotateRight_mod_eq_rotateRight, BitVec.rotateRight_def]
  split
  · next h => simp [h]
  · simp

/-- The left rotation is BitVec's. -/
theorem rol_eq_rotateLeft (x : Word) (n : Nat) : rol x n = x.rotateLeft n := by
  unfold rol
  rw [ror_eq_rotateRight]
  apply BitVec.eq_of_getLsbD_eq
  intro i hi
  rw [BitVec.getLsbD_rotateRight, BitVec.getLsbD_rotateLeft]
  rcases Nat.eq_zero_or_pos (n % 32) with h | h
  · simp [h, hi]
  · have h2 : (32 - n % 32) % 32 = 32 - n % 32 := Nat.mod_eq_of_lt (by omega)
    simp only [h2]
    have : 32 - (32 - n % 32) = n % 32 := by omega
    simp only [this]

/-- An entry that exists is read as it stands. -/
theorem wordAt_of_lt {xs : List Word} {i : Nat} (h : i < xs.length) : wordAt xs i = xs[i] := by
  simp [wordAt, List.getD_eq_getElem?_getD, h]

/-- Reading below n does not look at the entries from n on. -/
theorem wordAt_take {xs : List Word} {n i : Nat} (h : i < n) : wordAt (xs.take n) i = wordAt xs i := by
  simp [wordAt, List.getD_eq_getElem?_getD, h]

/-- Two arrays that agree below n read alike there. -/
theorem wordAt_congr_take {xs ys : List Word} {n i : Nat} (h : xs.take n = ys.take n) (hi : i < n) :
    wordAt xs i = wordAt ys i := by
  rw [← wordAt_take hi, h, wordAt_take hi]

theorem wordAt_set_self {xs : List Word} {i : Nat} (h : i < xs.length) (v : Word) : wordAt (xs.set i v) i = v := by
  simp [wordAt, List.getD_eq_getElem?_getD, h]

theorem wordAt_set_ne {xs : List Word} {i j : Nat} (h : i ≠ j) (v : Word) : wordAt (xs.set i v) j = wordAt xs j := by
  simp [wordAt, List.getD_eq_getElem?_getD, List.getElem?_set_ne h]

/-- A write, seen in the first n entries. -/
theorem take_set_eq (xs : List Word) (n i : Nat) (v : Word) :
    (xs.set i v).take n = (xs.take n).set i v := by
  rw [List.take_set]

/-- A write below n is not seen from n on. -/
theorem drop_set_below {xs : List Word} {n i : Nat} (v : Word) (h : i < n) : (xs.set i v).drop n = xs.drop n :=
  List.drop_set_of_lt h

@[simp] theorem loadL_length (c : Nat) (key : List Word) (b : Nat) : (loadL c key b).length = c := by simp [loadL]

@[simp] theorem bytesToWords_length (K : List Byte) : (bytesToWords K).length = keyWordCount K.length := by simp [bytesToWords]

theorem keyWordCount_pos (b : Nat) : 1 ≤ keyWordCount b := by unfold keyWordCount; omega

theorem roundKeyCount_pos (r : Nat) : 4 ≤ roundKeyCount r := by unfold roundKeyCount; omega

theorem keyWordCount_le_cMax {b : Nat} {B : Build} (hB : B.wellFormed = true) (h : b ≤ B.keyBytesMax) :
    keyWordCount b ≤ B.cMax := by
  simp [Build.wellFormed] at hB
  unfold keyWordCount Build.cMax
  omega

theorem rom_succ (i : Nat) : rom (i + 1) = rom i + Config.Q := by
  unfold rom
  generalize Config.P = P
  generalize Config.Q = Q
  rw [BitVec.ofNat_add, BitVec.add_mul, BitVec.add_assoc, BitVec.one_mul]

/-- The last entry of phase 1 so far stands first. -/
theorem expandRev_eq (m : Nat) : expandRev m = ((List.range (m + 1)).map rom).reverse := by
  induction m with
  | zero => simp [expandRev, rom]
  | succ m ih =>
    rw [expandRev, ih, List.range_succ (n := m + 1), List.range_succ (n := m)]
    simp [rom_succ]

@[simp] theorem expand_length {n : Nat} (h : 1 ≤ n) : (expand n).length = n := by
  simp [expand, expandRev_eq]; omega

theorem wordAt_expand {n i : Nat} (h : i < n) : wordAt (expand n) i = rom i := by
  have : n - 1 + 1 = n := by omega
  simp [expand, expandRev_eq, this, wordAt, h]

/-- One more entry of an array, the one just written. -/
theorem take_succ_set {xs : List Word} {i : Nat} (v : Word) (h : i < xs.length) :
    (xs.set i v).take (i + 1) = xs.take i ++ [v] := by
  rw [List.take_add_one, List.take_set, List.set_eq_of_length_le (by simp)]
  simp [h]

theorem take_succ_wordAt {xs : List Word} {i : Nat} (h : i < xs.length) :
    xs.take (i + 1) = xs.take i ++ [wordAt xs i] := by
  rw [List.take_add_one, wordAt_of_lt h]
  simp [h]

/-- A mask laid over a word, byte by byte. -/
theorem leWord_mask (x : Word) (b0 b1 b2 b3 : Byte) :
    x &&& leWord b0 b1 b2 b3 = leWord (byteOf x 0 &&& b0) (byteOf x 1 &&& b1) (byteOf x 2 &&& b2) (byteOf x 3 &&& b3) := by
  apply BitVec.eq_of_getLsbD_eq
  intro i hi
  simp only [leWord, byteOf, BitVec.getLsbD_and, BitVec.getLsbD_append, BitVec.getLsbD_extractLsb']
  by_cases h1 : i < 8
  · simp [h1]
  · by_cases h2 : i < 16
    · simp [h1, show i - 8 < 8 by omega, show 8 + (i - 8) = i by omega]
    · by_cases h3 : i < 24
      · simp [h1, show ¬ i - 8 < 8 by omega, show i - 8 - 8 < 8 by omega, show 16 + (i - 8 - 8) = i by omega]
      · simp [h1, show ¬ i - 8 < 8 by omega, show ¬ i - 8 - 8 < 8 by omega, show i - 8 - 8 - 8 < 8 by omega,
          show 24 + (i - 8 - 8 - 8) = i by omega]

theorem and_maskByte (x : Byte) (p b : Nat) : x &&& maskByte p b = if p < b then x else 0 := by
  unfold maskByte
  split
  · exact BitVec.and_allOnes
  · simp

theorem wordsToBytes_length (ws : List Word) : (wordsToBytes ws).length = 4 * ws.length := by
  induction ws with
  | nil => rfl
  | cons x xs ih => simp [wordsToBytes, wordBytes] at *; omega

/-- Byte 4j + m of a serialised list of words is byte m of word j. -/
theorem wordsToBytes_get (ws : List Word) (j m : Nat) (hj : j < ws.length) (hm : m < 4) :
    (wordsToBytes ws)[4 * j + m]? = some (byteOf (wordAt ws j) m) := by
  induction ws generalizing j with
  | nil => simp at hj
  | cons x xs ih =>
    cases j with
    | zero =>
      simp only [wordsToBytes, List.flatMap_cons, wordBytes]
      have : m = 0 ∨ m = 1 ∨ m = 2 ∨ m = 3 := by omega
      rcases this with rfl | rfl | rfl | rfl <;> simp [wordAt]
    | succ j =>
      have hj' : j < xs.length := by simpa using hj
      have := ih j hj'
      simp only [wordsToBytes, List.flatMap_cons, wordBytes] at *
      rw [List.getElem?_append_right (by simp; omega)]
      simp only [List.length_cons, List.length_nil]
      rw [show 4 * (j + 1) + m - (0 + 1 + 1 + 1 + 1) = 4 * j + m by omega, this, wordAt_of_lt hj', wordAt_of_lt hj]
      rfl

theorem mixLoop_succ (n c k : Nat) (m : MixState) : mixLoop n c (k + 1) m = mixStep n c (mixLoop n c k m) := by
  induction k generalizing m with
  | zero => rfl
  | succ k ih => rw [mixLoop, ih, mixLoop]

theorem mixLoop_length (n c k : Nat) (m : MixState) :
    (mixLoop n c k m).S.length = m.S.length ∧ (mixLoop n c k m).L.length = m.L.length := by
  induction k with
  | zero => exact ⟨rfl, rfl⟩
  | succ k ih => rw [mixLoop_succ]; simpa [mixStep] using ih

/-- The cursors of the phase-2 loop are the iteration count modulo n and modulo c. -/
theorem mixLoop_cursors (n c k : Nat) (m : MixState) (hi : m.i = 0) (hj : m.j = 0) :
    (mixLoop n c k m).i = k % n ∧ (mixLoop n c k m).j = k % c := by
  induction k with
  | zero => simp [mixLoop, hi, hj]
  | succ k ih => rw [mixLoop_succ]; simp [mixStep, ih.1, ih.2, Nat.add_mod]

end Sys2Proof.Machine
end

