-- ==== Sys2Proof/Laws/State.lean ====
section
/-! SUPPORT. One lemma per field of State per shared update: what the update writes there, or that it leaves it. -/

namespace Sys2Proof.Machine

section reject
@[simp] theorem reject_build (c : ErrCode) (o : BitVec 4) (s : State) : (reject c o s).build = s.build := rfl
@[simp] theorem reject_status (c : ErrCode) (o : BitVec 4) (s : State) : (reject c o s).status = { s.status with err := true, errCode := c, errOp := o } := rfl
@[simp] theorem reject_irqEn (c : ErrCode) (o : BitVec 4) (s : State) : (reject c o s).irqEn = s.irqEn := rfl
@[simp] theorem reject_cfg (c : ErrCode) (o : BitVec 4) (s : State) : (reject c o s).cfg = s.cfg := rfl
@[simp] theorem reject_keylen (c : ErrCode) (o : BitVec 4) (s : State) : (reject c o s).keylen = s.keylen := rfl
@[simp] theorem reject_din (c : ErrCode) (o : BitVec 4) (s : State) : (reject c o s).din = s.din := rfl
@[simp] theorem reject_dout (c : ErrCode) (o : BitVec 4) (s : State) : (reject c o s).dout = s.dout := rfl
@[simp] theorem reject_key (c : ErrCode) (o : BitVec 4) (s : State) : (reject c o s).key = s.key := rfl
@[simp] theorem reject_S (c : ErrCode) (o : BitVec 4) (s : State) : (reject c o s).S = s.S := rfl
@[simp] theorem reject_L (c : ErrCode) (o : BitVec 4) (s : State) : (reject c o s).L = s.L := rfl
@[simp] theorem reject_WA (c : ErrCode) (o : BitVec 4) (s : State) : (reject c o s).WA = s.WA := rfl
@[simp] theorem reject_WB (c : ErrCode) (o : BitVec 4) (s : State) : (reject c o s).WB = s.WB := rfl
@[simp] theorem reject_WC (c : ErrCode) (o : BitVec 4) (s : State) : (reject c o s).WC = s.WC := rfl
@[simp] theorem reject_WD (c : ErrCode) (o : BitVec 4) (s : State) : (reject c o s).WD = s.WD := rfl
@[simp] theorem reject_KA (c : ErrCode) (o : BitVec 4) (s : State) : (reject c o s).KA = s.KA := rfl
@[simp] theorem reject_KB (c : ErrCode) (o : BitVec 4) (s : State) : (reject c o s).KB = s.KB := rfl
@[simp] theorem reject_SI (c : ErrCode) (o : BitVec 4) (s : State) : (reject c o s).SI = s.SI := rfl
@[simp] theorem reject_LJ (c : ErrCode) (o : BitVec 4) (s : State) : (reject c o s).LJ = s.LJ := rfl
@[simp] theorem reject_KN (c : ErrCode) (o : BitVec 4) (s : State) : (reject c o s).KN = s.KN := rfl
@[simp] theorem reject_RI (c : ErrCode) (o : BitVec 4) (s : State) : (reject c o s).RI = s.RI := rfl
@[simp] theorem reject_RL (c : ErrCode) (o : BitVec 4) (s : State) : (reject c o s).RL = s.RL := rfl
@[simp] theorem reject_CL (c : ErrCode) (o : BitVec 4) (s : State) : (reject c o s).CL = s.CL := rfl
@[simp] theorem reject_NL (c : ErrCode) (o : BitVec 4) (s : State) : (reject c o s).NL = s.NL := rfl
@[simp] theorem reject_VL (c : ErrCode) (o : BitVec 4) (s : State) : (reject c o s).VL = s.VL := rfl
@[simp] theorem reject_fsm (c : ErrCode) (o : BitVec 4) (s : State) : (reject c o s).fsm = s.fsm := rfl
@[simp] theorem reject_script (c : ErrCode) (o : BitVec 4) (s : State) : (reject c o s).script = s.script := rfl
@[simp] theorem reject_rdata (c : ErrCode) (o : BitVec 4) (s : State) : (reject c o s).rdata = s.rdata := rfl
@[simp] theorem reject_draws (c : ErrCode) (o : BitVec 4) (s : State) : (reject c o s).draws = s.draws := rfl
end reject

section clearError
@[simp] theorem clearError_build (s : State) : (clearError s).build = s.build := rfl
@[simp] theorem clearError_status (s : State) : (clearError s).status = { s.status with err := false, errCode := .none, errOp := 0 } := rfl
@[simp] theorem clearError_irqEn (s : State) : (clearError s).irqEn = s.irqEn := rfl
@[simp] theorem clearError_cfg (s : State) : (clearError s).cfg = s.cfg := rfl
@[simp] theorem clearError_keylen (s : State) : (clearError s).keylen = s.keylen := rfl
@[simp] theorem clearError_din (s : State) : (clearError s).din = s.din := rfl
@[simp] theorem clearError_dout (s : State) : (clearError s).dout = s.dout := rfl
@[simp] theorem clearError_key (s : State) : (clearError s).key = s.key := rfl
@[simp] theorem clearError_S (s : State) : (clearError s).S = s.S := rfl
@[simp] theorem clearError_L (s : State) : (clearError s).L = s.L := rfl
@[simp] theorem clearError_WA (s : State) : (clearError s).WA = s.WA := rfl
@[simp] theorem clearError_WB (s : State) : (clearError s).WB = s.WB := rfl
@[simp] theorem clearError_WC (s : State) : (clearError s).WC = s.WC := rfl
@[simp] theorem clearError_WD (s : State) : (clearError s).WD = s.WD := rfl
@[simp] theorem clearError_KA (s : State) : (clearError s).KA = s.KA := rfl
@[simp] theorem clearError_KB (s : State) : (clearError s).KB = s.KB := rfl
@[simp] theorem clearError_SI (s : State) : (clearError s).SI = s.SI := rfl
@[simp] theorem clearError_LJ (s : State) : (clearError s).LJ = s.LJ := rfl
@[simp] theorem clearError_KN (s : State) : (clearError s).KN = s.KN := rfl
@[simp] theorem clearError_RI (s : State) : (clearError s).RI = s.RI := rfl
@[simp] theorem clearError_RL (s : State) : (clearError s).RL = s.RL := rfl
@[simp] theorem clearError_CL (s : State) : (clearError s).CL = s.CL := rfl
@[simp] theorem clearError_NL (s : State) : (clearError s).NL = s.NL := rfl
@[simp] theorem clearError_VL (s : State) : (clearError s).VL = s.VL := rfl
@[simp] theorem clearError_fsm (s : State) : (clearError s).fsm = s.fsm := rfl
@[simp] theorem clearError_script (s : State) : (clearError s).script = s.script := rfl
@[simp] theorem clearError_rdata (s : State) : (clearError s).rdata = s.rdata := rfl
@[simp] theorem clearError_draws (s : State) : (clearError s).draws = s.draws := rfl
end clearError

section acceptCommon
@[simp] theorem acceptCommon_build (o : BitVec 4) (s : State) : (acceptCommon o s).build = s.build := rfl
@[simp] theorem acceptCommon_status (o : BitVec 4) (s : State) : (acceptCommon o s).status = { s.status with busy := true, done := false, activeOp := o } := rfl
@[simp] theorem acceptCommon_irqEn (o : BitVec 4) (s : State) : (acceptCommon o s).irqEn = s.irqEn := rfl
@[simp] theorem acceptCommon_cfg (o : BitVec 4) (s : State) : (acceptCommon o s).cfg = s.cfg := rfl
@[simp] theorem acceptCommon_keylen (o : BitVec 4) (s : State) : (acceptCommon o s).keylen = s.keylen := rfl
@[simp] theorem acceptCommon_din (o : BitVec 4) (s : State) : (acceptCommon o s).din = s.din := rfl
@[simp] theorem acceptCommon_dout (o : BitVec 4) (s : State) : (acceptCommon o s).dout = s.dout := rfl
@[simp] theorem acceptCommon_key (o : BitVec 4) (s : State) : (acceptCommon o s).key = s.key := rfl
@[simp] theorem acceptCommon_S (o : BitVec 4) (s : State) : (acceptCommon o s).S = s.S := rfl
@[simp] theorem acceptCommon_L (o : BitVec 4) (s : State) : (acceptCommon o s).L = s.L := rfl
@[simp] theorem acceptCommon_WA (o : BitVec 4) (s : State) : (acceptCommon o s).WA = s.WA := rfl
@[simp] theorem acceptCommon_WB (o : BitVec 4) (s : State) : (acceptCommon o s).WB = s.WB := rfl
@[simp] theorem acceptCommon_WC (o : BitVec 4) (s : State) : (acceptCommon o s).WC = s.WC := rfl
@[simp] theorem acceptCommon_WD (o : BitVec 4) (s : State) : (acceptCommon o s).WD = s.WD := rfl
@[simp] theorem acceptCommon_KA (o : BitVec 4) (s : State) : (acceptCommon o s).KA = s.KA := rfl
@[simp] theorem acceptCommon_KB (o : BitVec 4) (s : State) : (acceptCommon o s).KB = s.KB := rfl
@[simp] theorem acceptCommon_SI (o : BitVec 4) (s : State) : (acceptCommon o s).SI = s.SI := rfl
@[simp] theorem acceptCommon_LJ (o : BitVec 4) (s : State) : (acceptCommon o s).LJ = s.LJ := rfl
@[simp] theorem acceptCommon_KN (o : BitVec 4) (s : State) : (acceptCommon o s).KN = s.KN := rfl
@[simp] theorem acceptCommon_RI (o : BitVec 4) (s : State) : (acceptCommon o s).RI = s.RI := rfl
@[simp] theorem acceptCommon_RL (o : BitVec 4) (s : State) : (acceptCommon o s).RL = s.RL := rfl
@[simp] theorem acceptCommon_CL (o : BitVec 4) (s : State) : (acceptCommon o s).CL = s.CL := rfl
@[simp] theorem acceptCommon_NL (o : BitVec 4) (s : State) : (acceptCommon o s).NL = s.NL := rfl
@[simp] theorem acceptCommon_VL (o : BitVec 4) (s : State) : (acceptCommon o s).VL = s.VL := rfl
@[simp] theorem acceptCommon_fsm (o : BitVec 4) (s : State) : (acceptCommon o s).fsm = s.fsm := rfl
@[simp] theorem acceptCommon_script (o : BitVec 4) (s : State) : (acceptCommon o s).script = s.script := rfl
@[simp] theorem acceptCommon_rdata (o : BitVec 4) (s : State) : (acceptCommon o s).rdata = s.rdata := rfl
@[simp] theorem acceptCommon_draws (o : BitVec 4) (s : State) : (acceptCommon o s).draws = s.draws := rfl
end acceptCommon

section complete
@[simp] theorem complete_build (s : State) : (complete s).build = s.build := rfl
@[simp] theorem complete_status (s : State) : (complete s).status = { s.status with busy := false, done := true } := rfl
@[simp] theorem complete_irqEn (s : State) : (complete s).irqEn = s.irqEn := rfl
@[simp] theorem complete_cfg (s : State) : (complete s).cfg = s.cfg := rfl
@[simp] theorem complete_keylen (s : State) : (complete s).keylen = s.keylen := rfl
@[simp] theorem complete_din (s : State) : (complete s).din = s.din := rfl
@[simp] theorem complete_dout (s : State) : (complete s).dout = s.dout := rfl
@[simp] theorem complete_key (s : State) : (complete s).key = s.key := rfl
@[simp] theorem complete_S (s : State) : (complete s).S = s.S := rfl
@[simp] theorem complete_L (s : State) : (complete s).L = s.L := rfl
@[simp] theorem complete_WA (s : State) : (complete s).WA = s.WA := rfl
@[simp] theorem complete_WB (s : State) : (complete s).WB = s.WB := rfl
@[simp] theorem complete_WC (s : State) : (complete s).WC = s.WC := rfl
@[simp] theorem complete_WD (s : State) : (complete s).WD = s.WD := rfl
@[simp] theorem complete_KA (s : State) : (complete s).KA = s.KA := rfl
@[simp] theorem complete_KB (s : State) : (complete s).KB = s.KB := rfl
@[simp] theorem complete_SI (s : State) : (complete s).SI = s.SI := rfl
@[simp] theorem complete_LJ (s : State) : (complete s).LJ = s.LJ := rfl
@[simp] theorem complete_KN (s : State) : (complete s).KN = s.KN := rfl
@[simp] theorem complete_RI (s : State) : (complete s).RI = s.RI := rfl
@[simp] theorem complete_RL (s : State) : (complete s).RL = s.RL := rfl
@[simp] theorem complete_CL (s : State) : (complete s).CL = s.CL := rfl
@[simp] theorem complete_NL (s : State) : (complete s).NL = s.NL := rfl
@[simp] theorem complete_VL (s : State) : (complete s).VL = s.VL := rfl
@[simp] theorem complete_fsm (s : State) : (complete s).fsm = .idle := rfl
@[simp] theorem complete_script (s : State) : (complete s).script = s.script := rfl
@[simp] theorem complete_rdata (s : State) : (complete s).rdata = s.rdata := rfl
@[simp] theorem complete_draws (s : State) : (complete s).draws = s.draws := rfl
end complete

section endCipher
@[simp] theorem endCipher_build (s : State) : (endCipher s).build = s.build := rfl
@[simp] theorem endCipher_status (s : State) : (endCipher s).status = { s.status with keyValid := false, schedR := 0 } := rfl
@[simp] theorem endCipher_irqEn (s : State) : (endCipher s).irqEn = s.irqEn := rfl
@[simp] theorem endCipher_cfg (s : State) : (endCipher s).cfg = s.cfg := rfl
@[simp] theorem endCipher_keylen (s : State) : (endCipher s).keylen = s.keylen := rfl
@[simp] theorem endCipher_din (s : State) : (endCipher s).din = s.din := rfl
@[simp] theorem endCipher_dout (s : State) : (endCipher s).dout = s.dout := rfl
@[simp] theorem endCipher_key (s : State) : (endCipher s).key = s.key := rfl
@[simp] theorem endCipher_S (s : State) : (endCipher s).S = s.S := rfl
@[simp] theorem endCipher_L (s : State) : (endCipher s).L = s.L := rfl
@[simp] theorem endCipher_WA (s : State) : (endCipher s).WA = s.WA := rfl
@[simp] theorem endCipher_WB (s : State) : (endCipher s).WB = s.WB := rfl
@[simp] theorem endCipher_WC (s : State) : (endCipher s).WC = s.WC := rfl
@[simp] theorem endCipher_WD (s : State) : (endCipher s).WD = s.WD := rfl
@[simp] theorem endCipher_KA (s : State) : (endCipher s).KA = s.KA := rfl
@[simp] theorem endCipher_KB (s : State) : (endCipher s).KB = s.KB := rfl
@[simp] theorem endCipher_SI (s : State) : (endCipher s).SI = s.SI := rfl
@[simp] theorem endCipher_LJ (s : State) : (endCipher s).LJ = s.LJ := rfl
@[simp] theorem endCipher_KN (s : State) : (endCipher s).KN = s.KN := rfl
@[simp] theorem endCipher_RI (s : State) : (endCipher s).RI = s.RI := rfl
@[simp] theorem endCipher_RL (s : State) : (endCipher s).RL = s.RL := rfl
@[simp] theorem endCipher_CL (s : State) : (endCipher s).CL = s.CL := rfl
@[simp] theorem endCipher_NL (s : State) : (endCipher s).NL = s.NL := rfl
@[simp] theorem endCipher_VL (s : State) : (endCipher s).VL = s.VL := rfl
@[simp] theorem endCipher_fsm (s : State) : (endCipher s).fsm = s.fsm := rfl
@[simp] theorem endCipher_script (s : State) : (endCipher s).script = s.script := rfl
@[simp] theorem endCipher_rdata (s : State) : (endCipher s).rdata = s.rdata := rfl
@[simp] theorem endCipher_draws (s : State) : (endCipher s).draws = s.draws := rfl
end endCipher

section latchBlock
@[simp] theorem latchBlock_build (s : State) : (latchBlock s).build = s.build := rfl
@[simp] theorem latchBlock_status (s : State) : (latchBlock s).status = s.status := rfl
@[simp] theorem latchBlock_irqEn (s : State) : (latchBlock s).irqEn = s.irqEn := rfl
@[simp] theorem latchBlock_cfg (s : State) : (latchBlock s).cfg = s.cfg := rfl
@[simp] theorem latchBlock_keylen (s : State) : (latchBlock s).keylen = s.keylen := rfl
@[simp] theorem latchBlock_din (s : State) : (latchBlock s).din = s.din := rfl
@[simp] theorem latchBlock_dout (s : State) : (latchBlock s).dout = s.dout := rfl
@[simp] theorem latchBlock_key (s : State) : (latchBlock s).key = s.key := rfl
@[simp] theorem latchBlock_S (s : State) : (latchBlock s).S = s.S := rfl
@[simp] theorem latchBlock_L (s : State) : (latchBlock s).L = s.L := rfl
@[simp] theorem latchBlock_WA (s : State) : (latchBlock s).WA = s.din.a := rfl
@[simp] theorem latchBlock_WB (s : State) : (latchBlock s).WB = s.din.b := rfl
@[simp] theorem latchBlock_WC (s : State) : (latchBlock s).WC = s.din.c := rfl
@[simp] theorem latchBlock_WD (s : State) : (latchBlock s).WD = s.din.d := rfl
@[simp] theorem latchBlock_KA (s : State) : (latchBlock s).KA = s.KA := rfl
@[simp] theorem latchBlock_KB (s : State) : (latchBlock s).KB = s.KB := rfl
@[simp] theorem latchBlock_SI (s : State) : (latchBlock s).SI = s.SI := rfl
@[simp] theorem latchBlock_LJ (s : State) : (latchBlock s).LJ = s.LJ := rfl
@[simp] theorem latchBlock_KN (s : State) : (latchBlock s).KN = s.KN := rfl
@[simp] theorem latchBlock_RI (s : State) : (latchBlock s).RI = s.RI := rfl
@[simp] theorem latchBlock_RL (s : State) : (latchBlock s).RL = s.RL := rfl
@[simp] theorem latchBlock_CL (s : State) : (latchBlock s).CL = s.CL := rfl
@[simp] theorem latchBlock_NL (s : State) : (latchBlock s).NL = s.NL := rfl
@[simp] theorem latchBlock_VL (s : State) : (latchBlock s).VL = s.VL := rfl
@[simp] theorem latchBlock_fsm (s : State) : (latchBlock s).fsm = s.fsm := rfl
@[simp] theorem latchBlock_script (s : State) : (latchBlock s).script = s.script := rfl
@[simp] theorem latchBlock_rdata (s : State) : (latchBlock s).rdata = s.rdata := rfl
@[simp] theorem latchBlock_draws (s : State) : (latchBlock s).draws = s.draws := rfl
end latchBlock

section clearScratch
@[simp] theorem clearScratch_build (s : State) : (clearScratch s).build = s.build := rfl
@[simp] theorem clearScratch_status (s : State) : (clearScratch s).status = s.status := rfl
@[simp] theorem clearScratch_irqEn (s : State) : (clearScratch s).irqEn = s.irqEn := rfl
@[simp] theorem clearScratch_cfg (s : State) : (clearScratch s).cfg = s.cfg := rfl
@[simp] theorem clearScratch_keylen (s : State) : (clearScratch s).keylen = s.keylen := rfl
@[simp] theorem clearScratch_din (s : State) : (clearScratch s).din = s.din := rfl
@[simp] theorem clearScratch_dout (s : State) : (clearScratch s).dout = s.dout := rfl
@[simp] theorem clearScratch_key (s : State) : (clearScratch s).key = s.key := rfl
@[simp] theorem clearScratch_S (s : State) : (clearScratch s).S = s.S := rfl
@[simp] theorem clearScratch_L (s : State) : (clearScratch s).L = List.replicate s.build.cMax 0 := rfl
@[simp] theorem clearScratch_WA (s : State) : (clearScratch s).WA = s.WA := rfl
@[simp] theorem clearScratch_WB (s : State) : (clearScratch s).WB = s.WB := rfl
@[simp] theorem clearScratch_WC (s : State) : (clearScratch s).WC = s.WC := rfl
@[simp] theorem clearScratch_WD (s : State) : (clearScratch s).WD = s.WD := rfl
@[simp] theorem clearScratch_KA (s : State) : (clearScratch s).KA = 0 := rfl
@[simp] theorem clearScratch_KB (s : State) : (clearScratch s).KB = 0 := rfl
@[simp] theorem clearScratch_SI (s : State) : (clearScratch s).SI = s.SI := rfl
@[simp] theorem clearScratch_LJ (s : State) : (clearScratch s).LJ = s.LJ := rfl
@[simp] theorem clearScratch_KN (s : State) : (clearScratch s).KN = s.KN := rfl
@[simp] theorem clearScratch_RI (s : State) : (clearScratch s).RI = s.RI := rfl
@[simp] theorem clearScratch_RL (s : State) : (clearScratch s).RL = s.RL := rfl
@[simp] theorem clearScratch_CL (s : State) : (clearScratch s).CL = s.CL := rfl
@[simp] theorem clearScratch_NL (s : State) : (clearScratch s).NL = s.NL := rfl
@[simp] theorem clearScratch_VL (s : State) : (clearScratch s).VL = s.VL := rfl
@[simp] theorem clearScratch_fsm (s : State) : (clearScratch s).fsm = s.fsm := rfl
@[simp] theorem clearScratch_script (s : State) : (clearScratch s).script = s.script := rfl
@[simp] theorem clearScratch_rdata (s : State) : (clearScratch s).rdata = s.rdata := rfl
@[simp] theorem clearScratch_draws (s : State) : (clearScratch s).draws = s.draws := rfl
end clearScratch

section latchKeygen
@[simp] theorem latchKeygen_build (s : State) : (latchKeygen s).build = s.build := rfl
@[simp] theorem latchKeygen_status (s : State) : (latchKeygen s).status = s.status := rfl
@[simp] theorem latchKeygen_irqEn (s : State) : (latchKeygen s).irqEn = s.irqEn := rfl
@[simp] theorem latchKeygen_cfg (s : State) : (latchKeygen s).cfg = s.cfg := rfl
@[simp] theorem latchKeygen_keylen (s : State) : (latchKeygen s).keylen = s.keylen := rfl
@[simp] theorem latchKeygen_din (s : State) : (latchKeygen s).din = s.din := rfl
@[simp] theorem latchKeygen_dout (s : State) : (latchKeygen s).dout = s.dout := rfl
@[simp] theorem latchKeygen_key (s : State) : (latchKeygen s).key = s.key := rfl
@[simp] theorem latchKeygen_S (s : State) : (latchKeygen s).S = s.S := rfl
@[simp] theorem latchKeygen_L (s : State) : (latchKeygen s).L = loadL s.build.cMax s.key (keyLength s) := rfl
@[simp] theorem latchKeygen_WA (s : State) : (latchKeygen s).WA = s.WA := rfl
@[simp] theorem latchKeygen_WB (s : State) : (latchKeygen s).WB = s.WB := rfl
@[simp] theorem latchKeygen_WC (s : State) : (latchKeygen s).WC = s.WC := rfl
@[simp] theorem latchKeygen_WD (s : State) : (latchKeygen s).WD = s.WD := rfl
@[simp] theorem latchKeygen_KA (s : State) : (latchKeygen s).KA = 0 := rfl
@[simp] theorem latchKeygen_KB (s : State) : (latchKeygen s).KB = 0 := rfl
@[simp] theorem latchKeygen_SI (s : State) : (latchKeygen s).SI = 0 := rfl
@[simp] theorem latchKeygen_LJ (s : State) : (latchKeygen s).LJ = 0 := rfl
@[simp] theorem latchKeygen_KN (s : State) : (latchKeygen s).KN = 0 := rfl
@[simp] theorem latchKeygen_RI (s : State) : (latchKeygen s).RI = s.RI := rfl
@[simp] theorem latchKeygen_RL (s : State) : (latchKeygen s).RL = s.cfg := rfl
@[simp] theorem latchKeygen_CL (s : State) : (latchKeygen s).CL = keyWordCount (keyLength s) := rfl
@[simp] theorem latchKeygen_NL (s : State) : (latchKeygen s).NL = roundKeyCount (cfgRounds s) := rfl
@[simp] theorem latchKeygen_VL (s : State) : (latchKeygen s).VL = mixCount (keyWordCount (keyLength s)) (roundKeyCount (cfgRounds s)) := rfl
@[simp] theorem latchKeygen_fsm (s : State) : (latchKeygen s).fsm = .kgP1 := rfl
@[simp] theorem latchKeygen_script (s : State) : (latchKeygen s).script = s.script := rfl
@[simp] theorem latchKeygen_rdata (s : State) : (latchKeygen s).rdata = s.rdata := rfl
@[simp] theorem latchKeygen_draws (s : State) : (latchKeygen s).draws = s.draws := rfl
end latchKeygen

section latchClrkey
@[simp] theorem latchClrkey_build (s : State) : (latchClrkey s).build = s.build := rfl
@[simp] theorem latchClrkey_status (s : State) : (latchClrkey s).status = s.status := rfl
@[simp] theorem latchClrkey_irqEn (s : State) : (latchClrkey s).irqEn = s.irqEn := rfl
@[simp] theorem latchClrkey_cfg (s : State) : (latchClrkey s).cfg = s.cfg := rfl
@[simp] theorem latchClrkey_keylen (s : State) : (latchClrkey s).keylen = s.keylen := rfl
@[simp] theorem latchClrkey_din (s : State) : (latchClrkey s).din = s.din := rfl
@[simp] theorem latchClrkey_dout (s : State) : (latchClrkey s).dout = s.dout := rfl
@[simp] theorem latchClrkey_key (s : State) : (latchClrkey s).key = List.replicate s.build.cMax 0 := rfl
@[simp] theorem latchClrkey_S (s : State) : (latchClrkey s).S = s.S := rfl
@[simp] theorem latchClrkey_L (s : State) : (latchClrkey s).L = s.L := rfl
@[simp] theorem latchClrkey_WA (s : State) : (latchClrkey s).WA = s.WA := rfl
@[simp] theorem latchClrkey_WB (s : State) : (latchClrkey s).WB = s.WB := rfl
@[simp] theorem latchClrkey_WC (s : State) : (latchClrkey s).WC = s.WC := rfl
@[simp] theorem latchClrkey_WD (s : State) : (latchClrkey s).WD = s.WD := rfl
@[simp] theorem latchClrkey_KA (s : State) : (latchClrkey s).KA = s.KA := rfl
@[simp] theorem latchClrkey_KB (s : State) : (latchClrkey s).KB = s.KB := rfl
@[simp] theorem latchClrkey_SI (s : State) : (latchClrkey s).SI = 0 := rfl
@[simp] theorem latchClrkey_LJ (s : State) : (latchClrkey s).LJ = s.LJ := rfl
@[simp] theorem latchClrkey_KN (s : State) : (latchClrkey s).KN = s.KN := rfl
@[simp] theorem latchClrkey_RI (s : State) : (latchClrkey s).RI = s.RI := rfl
@[simp] theorem latchClrkey_RL (s : State) : (latchClrkey s).RL = s.RL := rfl
@[simp] theorem latchClrkey_CL (s : State) : (latchClrkey s).CL = s.CL := rfl
@[simp] theorem latchClrkey_NL (s : State) : (latchClrkey s).NL = s.NL := rfl
@[simp] theorem latchClrkey_VL (s : State) : (latchClrkey s).VL = s.VL := rfl
@[simp] theorem latchClrkey_fsm (s : State) : (latchClrkey s).fsm = .ckClr := rfl
@[simp] theorem latchClrkey_script (s : State) : (latchClrkey s).script = s.script := rfl
@[simp] theorem latchClrkey_rdata (s : State) : (latchClrkey s).rdata = s.rdata := rfl
@[simp] theorem latchClrkey_draws (s : State) : (latchClrkey s).draws = s.draws := rfl
end latchClrkey

section State_withFetchWord
@[simp] theorem State.withFetchWord_build (s : State) (n w : Nat) : (s.withFetchWord n w).build = s.build := rfl
@[simp] theorem State.withFetchWord_status (s : State) (n w : Nat) : (s.withFetchWord n w).status = s.status := rfl
@[simp] theorem State.withFetchWord_irqEn (s : State) (n w : Nat) : (s.withFetchWord n w).irqEn = s.irqEn := rfl
@[simp] theorem State.withFetchWord_cfg (s : State) (n w : Nat) : (s.withFetchWord n w).cfg = s.cfg := rfl
@[simp] theorem State.withFetchWord_keylen (s : State) (n w : Nat) : (s.withFetchWord n w).keylen = s.keylen := rfl
@[simp] theorem State.withFetchWord_din (s : State) (n w : Nat) : (s.withFetchWord n w).din = s.din := rfl
@[simp] theorem State.withFetchWord_dout (s : State) (n w : Nat) : (s.withFetchWord n w).dout = s.dout := rfl
@[simp] theorem State.withFetchWord_key (s : State) (n w : Nat) : (s.withFetchWord n w).key = s.key := rfl
@[simp] theorem State.withFetchWord_S (s : State) (n w : Nat) : (s.withFetchWord n w).S = s.S := rfl
@[simp] theorem State.withFetchWord_L (s : State) (n w : Nat) : (s.withFetchWord n w).L = s.L := rfl
@[simp] theorem State.withFetchWord_WA (s : State) (n w : Nat) : (s.withFetchWord n w).WA = s.WA := rfl
@[simp] theorem State.withFetchWord_WB (s : State) (n w : Nat) : (s.withFetchWord n w).WB = s.WB := rfl
@[simp] theorem State.withFetchWord_WC (s : State) (n w : Nat) : (s.withFetchWord n w).WC = s.WC := rfl
@[simp] theorem State.withFetchWord_WD (s : State) (n w : Nat) : (s.withFetchWord n w).WD = s.WD := rfl
@[simp] theorem State.withFetchWord_KA (s : State) (n w : Nat) : (s.withFetchWord n w).KA = s.KA := rfl
@[simp] theorem State.withFetchWord_KB (s : State) (n w : Nat) : (s.withFetchWord n w).KB = s.KB := rfl
@[simp] theorem State.withFetchWord_SI (s : State) (n w : Nat) : (s.withFetchWord n w).SI = s.SI := rfl
@[simp] theorem State.withFetchWord_LJ (s : State) (n w : Nat) : (s.withFetchWord n w).LJ = s.LJ := rfl
@[simp] theorem State.withFetchWord_KN (s : State) (n w : Nat) : (s.withFetchWord n w).KN = s.KN := rfl
@[simp] theorem State.withFetchWord_RI (s : State) (n w : Nat) : (s.withFetchWord n w).RI = s.RI := rfl
@[simp] theorem State.withFetchWord_RL (s : State) (n w : Nat) : (s.withFetchWord n w).RL = s.RL := rfl
@[simp] theorem State.withFetchWord_CL (s : State) (n w : Nat) : (s.withFetchWord n w).CL = s.CL := rfl
@[simp] theorem State.withFetchWord_NL (s : State) (n w : Nat) : (s.withFetchWord n w).NL = s.NL := rfl
@[simp] theorem State.withFetchWord_VL (s : State) (n w : Nat) : (s.withFetchWord n w).VL = s.VL := rfl
@[simp] theorem State.withFetchWord_fsm (s : State) (n w : Nat) : (s.withFetchWord n w).fsm = s.fsm := rfl
@[simp] theorem State.withFetchWord_script (s : State) (n w : Nat) : (s.withFetchWord n w).script = commandPins n w :: s.script := rfl
@[simp] theorem State.withFetchWord_rdata (s : State) (n w : Nat) : (s.withFetchWord n w).rdata = s.rdata := rfl
@[simp] theorem State.withFetchWord_draws (s : State) (n w : Nat) : (s.withFetchWord n w).draws = s.draws := rfl
end State_withFetchWord

section commit
@[simp] theorem commit_build (s sb : State) : (commit s sb).build = (tick s sb).build := rfl
@[simp] theorem commit_status (s sb : State) : (commit s sb).status = (tick s sb).status := rfl
@[simp] theorem commit_irqEn (s sb : State) : (commit s sb).irqEn = (tick s sb).irqEn := rfl
@[simp] theorem commit_cfg (s sb : State) : (commit s sb).cfg = (tick s sb).cfg := rfl
@[simp] theorem commit_keylen (s sb : State) : (commit s sb).keylen = (tick s sb).keylen := rfl
@[simp] theorem commit_din (s sb : State) : (commit s sb).din = (tick s sb).din := rfl
@[simp] theorem commit_dout (s sb : State) : (commit s sb).dout = (tick s sb).dout := rfl
@[simp] theorem commit_key (s sb : State) : (commit s sb).key = (tick s sb).key := rfl
@[simp] theorem commit_S (s sb : State) : (commit s sb).S = (tick s sb).S := rfl
@[simp] theorem commit_L (s sb : State) : (commit s sb).L = (tick s sb).L := rfl
@[simp] theorem commit_WA (s sb : State) : (commit s sb).WA = (tick s sb).WA := rfl
@[simp] theorem commit_WB (s sb : State) : (commit s sb).WB = (tick s sb).WB := rfl
@[simp] theorem commit_WC (s sb : State) : (commit s sb).WC = (tick s sb).WC := rfl
@[simp] theorem commit_WD (s sb : State) : (commit s sb).WD = (tick s sb).WD := rfl
@[simp] theorem commit_KA (s sb : State) : (commit s sb).KA = (tick s sb).KA := rfl
@[simp] theorem commit_KB (s sb : State) : (commit s sb).KB = (tick s sb).KB := rfl
@[simp] theorem commit_SI (s sb : State) : (commit s sb).SI = (tick s sb).SI := rfl
@[simp] theorem commit_LJ (s sb : State) : (commit s sb).LJ = (tick s sb).LJ := rfl
@[simp] theorem commit_KN (s sb : State) : (commit s sb).KN = (tick s sb).KN := rfl
@[simp] theorem commit_RI (s sb : State) : (commit s sb).RI = (tick s sb).RI := rfl
@[simp] theorem commit_RL (s sb : State) : (commit s sb).RL = (tick s sb).RL := rfl
@[simp] theorem commit_CL (s sb : State) : (commit s sb).CL = (tick s sb).CL := rfl
@[simp] theorem commit_NL (s sb : State) : (commit s sb).NL = (tick s sb).NL := rfl
@[simp] theorem commit_VL (s sb : State) : (commit s sb).VL = (tick s sb).VL := rfl
@[simp] theorem commit_fsm (s sb : State) : (commit s sb).fsm = (tick s sb).fsm := rfl
@[simp] theorem commit_script (s sb : State) : (commit s sb).script = s.script.tail := rfl
@[simp] theorem commit_rdata (s sb : State) : (commit s sb).rdata = cycleRdata s (nextPins s) := rfl
@[simp] theorem commit_draws (s sb : State) : (commit s sb).draws = (tick s sb).draws := rfl
end commit

end Sys2Proof.Machine
end

