-- ==== Sys2Proof/Laws/Step.lean ====
section
/-! SUPPORT. What a bus access and a step can do, said once: later proofs take a step apart by `step_cases`. -/

namespace Sys2Proof.Machine

/-- What the bus access of one cycle can do to the state s (spec/43_control.md rule R180, rule R182). -/
inductive BusEffect (s : State) : State → Prop
  | nothing : BusEffect s s
  | rejected (c : ErrCode) (op : BitVec 4) (hc : c ≠ .none) (hs : c ≠ .shape) (ho : op ≠ 0) : BusEffect s (reject c op s)
  | keygen (hb : s.status.busy = false) (hl : configLegal s = true) :
      BusEffect s (acceptCommon Instr.keygen.op (endCipher (latchKeygen s)))
  | encrypt (hb : s.status.busy = false) (hk : s.status.keyValid = true) : BusEffect s (acceptEncrypt s)
  | decrypt (hb : s.status.busy = false) (hk : s.status.keyValid = true) : BusEffect s (acceptDecrypt s)
  | clrkey (hb : s.status.busy = false) : BusEffect s (acceptClrkey s)
  | status (v : Word) : BusEffect s { s with status := s.status.w1c v }
  | irqEn (e : IrqEn) : BusEffect s { s with irqEn := e }
  | cfg (c : BitVec 8) : BusEffect s { s with cfg := c }
  | keylen (c : BitVec 8) : BusEffect s { s with keylen := c }
  | din (x : Block) : BusEffect s { s with din := x }
  | key (k : Nat) (v : Word) : BusEffect s { s with key := s.key.set k v }

theorem configLegal_iff (s : State) :
    configLegal s = true ↔ 1 ≤ s.cfg.toNat ∧ s.cfg.toNat ≤ s.build.rMax ∧ s.keylen.toNat ≤ s.build.keyBytesMax := by
  simp only [configLegal, Bool.and_eq_true, decide_eq_true_eq, and_assoc]
  rfl

/-- A command under the BUSY check is rejected with BUSY or does what its acceptance rule does. -/
theorem unlessBusy_effect {op : BitVec 4} {f : State → State} {s : State} (ho : op ≠ 0)
    (h : s.status.busy = false → BusEffect s (f s)) : BusEffect s (unlessBusy op f s) := by
  unfold unlessBusy
  cases hb : s.status.busy with
  | true => exact .rejected _ _ (by decide) (by decide) ho
  | false => exact h hb

/-- A command under the KEY_VALID check is rejected with NOKEY or does what its acceptance rule does. -/
theorem needsKey_effect {op : BitVec 4} {f : State → State} {s : State} (ho : op ≠ 0)
    (h : s.status.keyValid = true → BusEffect s (f s)) : BusEffect s (needsKey op f s) := by
  unfold needsKey
  cases hk : s.status.keyValid with
  | false => exact .rejected _ _ (by decide) (by decide) ho
  | true => exact h hk

/-- A command's write is one of the bus effects. -/
theorem exec_effect {i : Instr} {s t : State} (h : exec i s = .next t) : BusEffect s t := by
  cases i with
  | nop => cases h; exact .nothing
  | keygen =>
    cases h
    refine unlessBusy_effect (by decide) fun hb => ?_
    unfold acceptKeygen
    split
    · exact .keygen hb ‹_›
    · exact .rejected _ _ (by decide) (by decide) (by decide)
  | encrypt => cases h; exact unlessBusy_effect (by decide) fun hb => needsKey_effect (by decide) fun hk => .encrypt hb hk
  | decrypt => cases h; exact unlessBusy_effect (by decide) fun hb => needsKey_effect (by decide) fun hk => .decrypt hb hk
  | clrkey => cases h; exact unlessBusy_effect (by decide) fun hb => .clrkey hb

/-- Every command answers a state. -/
theorem exec_isNext (i : Instr) (s : State) : ∃ t, exec i s = .next t := by
  cases i <;> exact ⟨_, rfl⟩

/-- A write to CMD answers a state. -/
theorem commandWrite_isNext (v : Word) (s : State) : ∃ t, commandWrite v s = .next t := by
  unfold commandWrite
  split
  · exact exec_isNext _ s
  · exact ⟨_, rfl⟩

/-- A word that decodes to no command has an opcode of 5 or more. -/
theorem opField_ne_zero_of_error {v : Word} {e : DecodeError} (h : decode v = .error e) : opField v ≠ 0 := by
  intro h0
  simp [decode, h0, decodeOp] at h

/-- A write to CMD is one of the bus effects. -/
theorem commandWrite_effect {v : Word} {s t : State} (h : commandWrite v s = .next t) : BusEffect s t := by
  unfold commandWrite at h
  split at h
  · exact exec_effect h
  · next e he =>
    cases h
    exact .rejected _ _ (by decide) (by decide) (opField_ne_zero_of_error he)

/-- The access of a cycle is one of the bus effects. -/
theorem busEffects_effect {a : Access} {s t : State} (h : busEffects s a = .next t) : BusEffect s t := by
  cases a with
  | idle => cases h; exact .nothing
  | read _ => cases h; exact .nothing
  | write a v =>
    simp only [busEffects] at h
    generalize hr : decodeAddr s.build a = r at h
    cases r with
    | cmd => exact commandWrite_effect h
    | id => cases h; exact .nothing
    | param => cases h; exact .nothing
    | dout q => cases h; exact .nothing
    | reserved => cases h; exact .nothing
    | status => cases h; exact .status v
    | irqEn => cases h; exact .irqEn _
    | cfg => cases h; exact .cfg _
    | keylen => cases h; exact .keylen _
    | din q => cases h; exact .din _
    | key k => cases h; exact .key k v

/-- The bus effects of an access always give a state. -/
theorem busEffects_isNext (s : State) (a : Access) : ∃ t, busEffects s a = .next t := by
  cases a with
  | idle => exact ⟨_, rfl⟩
  | read _ => exact ⟨_, rfl⟩
  | write a v =>
    simp only [busEffects]
    generalize decodeAddr s.build a = r
    cases r with
    | cmd => exact commandWrite_isNext v s
    | _ => exact ⟨_, rfl⟩

/-- A cycle outside reset, given its bus effects. -/
theorem step_of_effects {s sb : State} (hr : (nextPins s).rstN = true) (hb : busEffects s (nextPins s).access = .next sb) :
    step s = .next (commit s sb) := by
  simp [step, hr, hb]

/-- A reset cycle. -/
theorem step_of_reset {s : State} (hr : (nextPins s).rstN = false) : step s = .next (resetCycle s s.script.tail) := by
  simp [step, hr]

/-- Everything a step can do: a reset edge, or a bus effect and the tick of the cycle. -/
theorem step_cases {s t : State} (h : step s = .next t) :
    ((nextPins s).rstN = false ∧ t = resetCycle s s.script.tail) ∨
    ((nextPins s).rstN = true ∧ ∃ sb, busEffects s (nextPins s).access = .next sb ∧ BusEffect s sb ∧ t = commit s sb) := by
  cases hr : (nextPins s).rstN with
  | false => rw [step_of_reset hr] at h; cases h; exact .inl ⟨rfl, rfl⟩
  | true =>
    obtain ⟨sb, hb⟩ := busEffects_isNext s (nextPins s).access
    rw [step_of_effects hr hb] at h
    cases h
    exact .inr ⟨rfl, sb, hb, busEffects_effect hb, rfl⟩

@[simp] theorem nextPins_cons (s : State) (p : Pins) (rest : List Pins) : nextPins { s with script := p :: rest } = p := rfl

theorem nextPins_of_cons {s : State} {p : Pins} {rest : List Pins} (h : s.script = p :: rest) : nextPins s = p := by
  simp [nextPins, h]

/-- While BUSY = 1, an access leaves everything but the host's registers, DONE and the error record as it is (spec/70_reset_and_hazards.md
rule R236). -/
theorem BusEffect.of_busy {s t : State} (h : BusEffect s t) (hb : s.status.busy = true) :
    ∃ st irqEn cfg keylen din key, t = { s with status := st, irqEn := irqEn, cfg := cfg, keylen := keylen, din := din, key := key } ∧
      key.length = s.key.length ∧ st.busy = true ∧ st.keyValid = s.status.keyValid ∧ st.schedR = s.status.schedR ∧
      st.activeOp = s.status.activeOp := by
  cases h with
  | keygen h _ => simp [hb] at h
  | encrypt h _ => simp [hb] at h
  | decrypt h _ => simp [hb] at h
  | clrkey h => simp [hb] at h
  | status v =>
    refine ⟨_, _, _, _, _, _, rfl, rfl, ?_⟩
    simp only [Status.w1c]
    split <;> split <;> simp [hb]
  | nothing => exact ⟨_, _, _, _, _, _, rfl, by simp [hb]⟩
  | rejected c op _ _ _ => exact ⟨_, _, _, _, _, _, rfl, by simp [hb]⟩
  | irqEn _ => exact ⟨_, _, _, _, _, _, rfl, by simp [hb]⟩
  | cfg _ => exact ⟨_, _, _, _, _, _, rfl, by simp [hb]⟩
  | keylen _ => exact ⟨_, _, _, _, _, _, rfl, by simp [hb]⟩
  | din _ => exact ⟨_, _, _, _, _, _, rfl, by simp [hb]⟩
  | key k v => exact ⟨_, _, _, _, _, _, rfl, by simp [hb]⟩

end Sys2Proof.Machine
end

