-- ==== Sys2Proof/Laws/Tick.lean ====
section
/-! SUPPORT. What the FSM tick of a cycle leaves alone and what it reads, whatever the FSM state, and the step of a cycle whose pins are known. -/

namespace Sys2Proof.Machine

theorem tick_idle {s : State} (t : State) (h : s.fsm = .idle) : tick s t = t := by simp [tick, h]

/-- The tick does not touch the script and the bus record. -/
theorem tick_script_rdata (s t : State) (script : List Pins) (rdata : Word) :
    tick s { t with script := script, rdata := rdata } = { tick s t with script := script, rdata := rdata } := by
  unfold tick
  cases s.fsm <;> simp only [tickKgP1, tickKgP2, tickKgFin, tickEnPre, tickEnRnd, tickEnFin, tickDePre, tickDeRnd, tickDeFin,
    tickCkClr, tickCkFin] <;> first | rfl | (split <;> rfl)

/-- The tick does not write the build, the host's registers, the error record or the counter of draws. -/
theorem tick_frame (s t : State) :
    (tick s t).build = t.build ∧ (tick s t).irqEn = t.irqEn ∧ (tick s t).cfg = t.cfg ∧ (tick s t).keylen = t.keylen ∧
    (tick s t).din = t.din ∧ (tick s t).key = t.key ∧ (tick s t).status.err = t.status.err ∧
    (tick s t).status.errCode = t.status.errCode ∧ (tick s t).status.errOp = t.status.errOp ∧
    (tick s t).status.activeOp = t.status.activeOp ∧ (tick s t).draws = t.draws := by
  unfold tick
  cases s.fsm <;> simp only [tickKgP1, tickKgP2, tickKgFin, tickEnPre, tickEnRnd, tickEnFin, tickDePre, tickDeRnd, tickDeFin,
    tickCkClr, tickCkFin]
  case kgP1 => split <;> simp
  case ckClr => split <;> simp
  all_goals simp

/-- Of the KEY_VALID writes of the ticks there is one, KG_FIN's. -/
theorem tick_keyValid (s t : State) :
    (tick s t).status.keyValid = if s.fsm = .kgFin then true else t.status.keyValid := by
  unfold tick
  cases s.fsm <;> simp only [tickKgP1, tickKgP2, tickKgFin, tickEnPre, tickEnRnd, tickEnFin, tickDePre, tickDeRnd, tickDeFin,
    tickCkClr, tickCkFin]
  case kgP1 => split <;> rfl
  case ckClr => split <;> rfl
  all_goals rfl

/-- The ticks other than EN_FIN and DE_FIN leave DOUT. -/
theorem tick_dout {s : State} (t : State) (he : s.fsm ≠ .enFin) (hd : s.fsm ≠ .deFin) : (tick s t).dout = t.dout := by
  unfold tick
  cases hf : s.fsm <;> simp only [tickKgP1, tickKgP2, tickKgFin, tickEnPre, tickEnRnd, tickEnFin, tickDePre, tickDeRnd, tickDeFin,
    tickCkClr, tickCkFin]
  case kgP1 => split <;> simp
  case ckClr => split <;> simp
  case enFin => exact absurd hf he
  case deFin => exact absurd hf hd
  all_goals simp

/-- A tick of the KEYGEN, ENCRYPT, DECRYPT or CLRKEY sequence that is none of the four completions leaves DONE. -/
theorem tick_done (s t : State)
    (h : s.fsm ≠ .kgFin ∧ s.fsm ≠ .enFin ∧ s.fsm ≠ .deFin ∧ s.fsm ≠ .ckFin) : (tick s t).status.done = t.status.done := by
  obtain ⟨h1, h2, h3, h4⟩ := h
  unfold tick
  cases hf : s.fsm <;> simp only [tickKgP1, tickKgP2, tickKgFin, tickEnPre, tickEnRnd, tickEnFin, tickDePre, tickDeRnd, tickDeFin,
    tickCkClr, tickCkFin]
  case kgP1 => split <;> simp
  case ckClr => split <;> simp
  case kgFin => exact absurd hf h1
  case enFin => exact absurd hf h2
  case deFin => exact absurd hf h3
  case ckFin => exact absurd hf h4

/-- What an access can leave of a state whose BUSY is 1: the result of `BusEffect.of_busy`. -/
def BusyShape (s t : State) : Prop :=
  ∃ st irqEn cfg keylen din key,
    t = { s with status := st, irqEn := irqEn, cfg := cfg, keylen := keylen, din := din, key := key } ∧
    key.length = s.key.length ∧ st.busy = true ∧ st.keyValid = s.status.keyValid ∧ st.schedR = s.status.schedR ∧
    st.activeOp = s.status.activeOp

/-- While BUSY = 1 the access changes nothing the tick reads: ticking from the state after it is the same. -/
theorem tick_of_busyShape {s sb : State} (h : BusyShape s sb) : tick s sb = tick sb sb := by
  obtain ⟨st, e, c, k, d, key, rfl, -, -, -, hr, -⟩ := h
  unfold tick
  cases hf : s.fsm <;> simp only [tickKgP1, tickKgP2, tickKgFin, tickEnPre, tickEnRnd, tickEnFin, tickDePre, tickDeRnd, tickDeFin,
    tickCkClr, tickCkFin, schedRounds, hr]
  case enRnd => by_cases hh : s.RI = s.status.schedR.toNat <;> simp [hh]

/-- A command while BUSY = 1: a NOP does nothing, every other is rejected with BUSY. -/
theorem exec_of_busy (i : Instr) {s : State} (hb : s.status.busy = true) :
    exec i s = .next (if i = .nop then s else reject .busy i.op s) := by
  cases i <;> simp [exec, execNop, execKeygen, execEncrypt, execDecrypt, execClrkey, unlessBusy, hb]

/-- A cycle outside reset, given its pins and its bus effects. -/
theorem step_cons {s sb : State} {p : Pins} {rest : List Pins} (hs : s.script = p :: rest) (hr : p.rstN = true)
    (hb : busEffects s p.access = .next sb) :
    step s = .next { tick s sb with script := rest, rdata := cycleRdata s p } := by
  have hp := nextPins_of_cons hs
  rw [step_of_effects (by rw [hp]; exact hr) (by rw [hp]; exact hb), commit, hs, hp]
  rfl

end Sys2Proof.Machine
end

