-- ==== Sys2Proof/Laws/WellFormed.lean ====
section
/-! SUPPORT. Ways to show that a state is well formed, and that reset and the access of a cycle keep it so. -/

namespace Sys2Proof.Machine

/-- The access of a cycle keeps STATUS coherent. -/
theorem BusEffect.coherent {s t : State} (h : BusEffect s t) (hc : s.status.Coherent s.build) :
    t.status.Coherent t.build := by
  cases h with
  | nothing => exact hc
  | rejected c op h1 h2 h3 => exact ⟨by simp, by simpa using ⟨h1, h2, h3⟩, by simpa using hc.noKey, by simpa using hc.isKey, by simpa using hc.active⟩
  | keygen _ _ => exact ⟨by simpa using hc.noErr, by simpa using hc.isErr, by simp, by simp, by simp [Instr.op]⟩
  | encrypt _ _ => exact ⟨by simpa [acceptEncrypt] using hc.noErr, by simpa [acceptEncrypt] using hc.isErr, by simpa [acceptEncrypt] using hc.noKey, by simpa [acceptEncrypt] using hc.isKey, by simp [acceptEncrypt, Instr.op]⟩
  | decrypt _ _ => exact ⟨by simpa [acceptDecrypt] using hc.noErr, by simpa [acceptDecrypt] using hc.isErr, by simpa [acceptDecrypt] using hc.noKey, by simpa [acceptDecrypt] using hc.isKey, by simp [acceptDecrypt, Instr.op]⟩
  | clrkey _ => exact ⟨by simpa [acceptClrkey] using hc.noErr, by simpa [acceptClrkey] using hc.isErr, by simp [acceptClrkey], by simp [acceptClrkey], by simp [acceptClrkey, Instr.op]⟩
  | status v =>
    obtain ⟨h1, h2, h3, h4, h5⟩ := hc
    simp only [Status.w1c]
    constructor <;> (split <;> split <;> simp_all)
  | irqEn _ => exact hc
  | cfg _ => exact hc
  | keylen _ => exact hc
  | din _ => exact hc
  | key _ _ => exact hc

/-- The state after a reset edge is well formed, whatever the unspecified values. -/
theorem wf_afterReset {b : Build} (hb : b.wellFormed = true) (u : Unspecified) (hS : u.S.length = b.sLen) (hL : u.L.length = b.cMax)
  (sc : List Pins) (n : Nat) : (State.afterReset b u sc n).Wf := by
  constructor <;> simp_all [State.afterReset, Status.reset, Fsm.op, Instr.op]
  constructor <;> simp

/-- A reset cycle leaves a well-formed state. -/
theorem wf_resetCycle {s : State} (h : s.Wf) (r : List Pins) : (resetCycle s r).Wf :=
  wf_afterReset h.build _ (by simp [Unspecified.drawn]) (by simp [Unspecified.drawn]) _ _

/-- Well-formedness looks at nothing but these fields. -/
theorem State.Wf.congr {s t : State} (h : s.Wf) (hc : t.status.Coherent t.build)
    (h1 : t.build = s.build) (h2 : t.key.length = s.key.length) (h3 : t.S.length = s.S.length) (h4 : t.L.length = s.L.length)
    (h5 : t.status.busy = s.status.busy) (h6 : t.status.keyValid = s.status.keyValid) (h7 : t.status.schedR = s.status.schedR)
    (h8 : t.status.activeOp = s.status.activeOp) (h9 : t.fsm = s.fsm) (h10 : t.SI = s.SI) (h11 : t.LJ = s.LJ) (h12 : t.KN = s.KN)
    (h13 : t.RI = s.RI) (h14 : t.RL = s.RL) (h15 : t.CL = s.CL) (h16 : t.NL = s.NL) (h17 : t.VL = s.VL) (h18 : t.KA = s.KA) (h19 : t.KB = s.KB) : t.Wf where
  build := h1 ▸ h.build
  keyLen := by rw [h2, h1]; exact h.keyLen
  sLen := by rw [h3, h1]; exact h.sLen
  lLen := by rw [h4, h1]; exact h.lLen
  busy := by rw [h5, h9]; exact h.busy
  status := hc
  active := by rw [h8, h9]; exact h.active
  keygen := by rw [h6, h9, h14, h15, h16, h17, h1]; exact h.keygen
  kgP1 := by rw [h9, h10, h16, h11, h12, h18, h19]; exact h.kgP1
  kgP2 := by rw [h9, h10, h16, h11, h12, h15, h17]; exact h.kgP2
  encrypt := by rw [h9, h6]; exact h.encrypt
  enRnd := by rw [h9, h13, schedRounds, h7]; exact h.enRnd
  decrypt := by rw [h9, h6]; exact h.decrypt
  deRnd := by rw [h9, h13, schedRounds, h7]; exact h.deRnd
  clrkey := by rw [h9, h6]; exact h.clrkey
  ckClr := by rw [h9, h10, h1]; exact h.ckClr

/-- Well-formedness does not look at the script and the bus record. -/
theorem wf_script {s : State} (h : s.Wf) (sc w) : ({ s with script := sc, rdata := w } : State).Wf :=
  h.congr h.status rfl rfl rfl rfl rfl rfl rfl rfl rfl rfl rfl rfl rfl rfl rfl rfl rfl rfl rfl

/-- A running ENCRYPT, DECRYPT or CLRKEY is well formed if it meets what its FSM state asks. -/
theorem wf_mk {s : State} (b : s.build.wellFormed = true) (h2 : s.key.length = s.build.cMax) (h3 : s.S.length = s.build.sLen)
   (h4 : s.L.length = s.build.cMax) (h5 : s.status.busy = true) (h6 : s.status.Coherent s.build) (h7 : s.status.activeOp = s.fsm.op)
   (hf : (s.fsm = .enPre ∧ s.status.keyValid = true) ∨ (s.fsm = .enFin ∧ s.status.keyValid = true) ∨
         (s.fsm = .dePre ∧ s.status.keyValid = true) ∨ (s.fsm = .deFin ∧ s.status.keyValid = true) ∨
         (s.fsm = .enRnd ∧ s.status.keyValid = true ∧ 1 ≤ s.RI ∧ s.RI ≤ schedRounds s) ∨
         (s.fsm = .deRnd ∧ s.status.keyValid = true ∧ 1 ≤ s.RI ∧ s.RI ≤ schedRounds s) ∨
         (s.fsm = .ckClr ∧ s.status.keyValid = false ∧ s.SI < s.build.sLen) ∨ (s.fsm = .ckFin ∧ s.status.keyValid = false)) : s.Wf where
  build := b
  keyLen := h2
  sLen := h3
  lLen := h4
  busy := by rcases hf with h|h|h|h|h|h|h|h <;> simp [h, h5]
  status := h6
  active := fun _ => h7
  keygen := by rcases hf with h|h|h|h|h|h|h|h <;> simp [h, Fsm.op, Instr.op]
  kgP1 := by rcases hf with h|h|h|h|h|h|h|h <;> simp [h]
  kgP2 := by rcases hf with h|h|h|h|h|h|h|h <;> simp [h]
  encrypt := by rcases hf with h|h|h|h|h|h|h|h <;> simp [h, Fsm.op, Instr.op]
  enRnd := by rcases hf with h|h|h|h|h|h|h|h <;> simp [h]
  decrypt := by rcases hf with h|h|h|h|h|h|h|h <;> simp [h, Fsm.op, Instr.op]
  deRnd := by rcases hf with h|h|h|h|h|h|h|h <;> simp [h]
  clrkey := by rcases hf with h|h|h|h|h|h|h|h <;> simp [h, Fsm.op, Instr.op]
  ckClr := by rcases hf with h|h|h|h|h|h|h|h <;> simp [h]

/-- A running KEYGEN is well formed if it meets what its FSM state asks. -/
theorem wf_mk_kg {s : State} (b : s.build.wellFormed = true) (h2 : s.key.length = s.build.cMax) (h3 : s.S.length = s.build.sLen)
   (h4 : s.L.length = s.build.cMax) (h5 : s.status.busy = true) (h6 : s.status.Coherent s.build) (h7 : s.status.activeOp = s.fsm.op)
   (hk : s.status.keyValid = false ∧ 1 ≤ s.RL.toNat ∧ s.RL.toNat ≤ s.build.rMax ∧ 1 ≤ s.CL ∧ s.CL ≤ s.build.cMax ∧
      s.NL = roundKeyCount s.RL.toNat ∧ s.VL = mixCount s.CL s.NL)
   (hf : (s.fsm = .kgP1 ∧ s.SI < s.NL ∧ s.LJ = 0 ∧ s.KN = 0 ∧ s.KA = 0 ∧ s.KB = 0) ∨
      (s.fsm = .kgP2 ∧ s.SI = s.KN % s.NL ∧ s.LJ = s.KN % s.CL ∧ s.KN < s.VL) ∨ s.fsm = .kgFin) : s.Wf where
  build := b
  keyLen := h2
  sLen := h3
  lLen := h4
  busy := by rcases hf with h|h|h <;> simp [h, h5]
  status := h6
  active := fun _ => h7
  keygen := fun _ => hk
  kgP1 := by rcases hf with h|h|h <;> simp [h]
  kgP2 := by rcases hf with ⟨h, h'⟩|⟨h, h'⟩|h
             · simp [h]
             · exact fun _ => h'
             · simp [h]
  encrypt := by rcases hf with h|h|h <;> simp [h, Fsm.op, Instr.op]
  enRnd := by rcases hf with h|h|h <;> simp [h]
  decrypt := by rcases hf with h|h|h <;> simp [h, Fsm.op, Instr.op]
  deRnd := by rcases hf with h|h|h <;> simp [h]
  clrkey := by rcases hf with h|h|h <;> simp [h, Fsm.op, Instr.op]
  ckClr := by rcases hf with h|h|h <;> simp [h]

/-- An idle state is well formed if its arrays and STATUS are. -/
theorem wf_mk_idle {s : State} (b : s.build.wellFormed = true) (h2 : s.key.length = s.build.cMax) (h3 : s.S.length = s.build.sLen)
   (h4 : s.L.length = s.build.cMax) (h5 : s.status.busy = false) (h6 : s.status.Coherent s.build) (h : s.fsm = .idle) : s.Wf where
  build := b
  keyLen := h2
  sLen := h3
  lLen := h4
  busy := by simp [h, h5]
  status := h6
  active := by simp [h]
  keygen := by simp [h, Fsm.op, Instr.op]
  kgP1 := by simp [h]
  kgP2 := by simp [h]
  encrypt := by simp [h, Fsm.op, Instr.op]
  enRnd := by simp [h]
  decrypt := by simp [h, Fsm.op, Instr.op]
  deRnd := by simp [h]
  clrkey := by simp [h, Fsm.op, Instr.op]
  ckClr := by simp [h]

/-- The access of a cycle keeps the control state well formed. -/
theorem BusEffect.wf {s t : State} (h : BusEffect s t) (hw : s.Wf) : t.Wf := by
  have hc := h.coherent hw.status
  have R : ∀ {t : State}, t.status.Coherent t.build → t.build = s.build → t.key.length = s.key.length → t.S = s.S → t.L = s.L →
     t.status.busy = s.status.busy → t.status.keyValid = s.status.keyValid → t.status.schedR = s.status.schedR →
     t.status.activeOp = s.status.activeOp → t.fsm = s.fsm → t.SI = s.SI → t.LJ = s.LJ → t.KN = s.KN →
     t.RI = s.RI → t.RL = s.RL → t.CL = s.CL → t.NL = s.NL → t.VL = s.VL → t.KA = s.KA → t.KB = s.KB → t.Wf :=
    fun a b c d e f g h i j k l m n o p q r u v => hw.congr a b c (by rw [d]) (by rw [e]) f g h i j k l m n o p q r u v
  cases h with
  | nothing => exact hw
  | rejected c op h1 h2 h3 => exact R hc rfl rfl rfl rfl rfl rfl rfl rfl rfl rfl rfl rfl rfl rfl rfl rfl rfl rfl rfl
  | keygen hb hl =>
    have hl' := (configLegal_iff s).1 hl
    have := keyWordCount_le_cMax hw.build hl'.2.2
    have h2 := keyWordCount_pos s.keylen.toNat
    have h3 := roundKeyCount_pos s.cfg.toNat
    exact wf_mk_kg hw.build hw.keyLen hw.sLen (by simp) rfl hc rfl ⟨rfl, hl'.1, hl'.2.1, h2, this, rfl, rfl⟩
      (.inl ⟨rfl, by simp [cfgRounds]; omega, rfl, rfl, rfl, rfl⟩)
  | encrypt hb hk => exact wf_mk hw.build hw.keyLen hw.sLen hw.lLen rfl hc rfl (.inl ⟨rfl, hk⟩)
  | decrypt hb hk => exact wf_mk hw.build hw.keyLen hw.sLen hw.lLen rfl hc rfl (.inr (.inr (.inl ⟨rfl, hk⟩)))
  | clrkey hb => exact wf_mk hw.build (by simp [acceptClrkey]) hw.sLen hw.lLen rfl hc rfl (.inr (.inr (.inr (.inr (.inr (.inr (.inl ⟨rfl, rfl, by simp [acceptClrkey, Build.sLen]⟩)))))))
  | status v =>
    apply R hc <;> simp only [Status.w1c] <;> split <;> split <;> rfl
  | irqEn _ => exact R hc rfl rfl rfl rfl rfl rfl rfl rfl rfl rfl rfl rfl rfl rfl rfl rfl rfl rfl rfl
  | cfg _ => exact R hc rfl rfl rfl rfl rfl rfl rfl rfl rfl rfl rfl rfl rfl rfl rfl rfl rfl rfl rfl
  | keylen _ => exact R hc rfl rfl rfl rfl rfl rfl rfl rfl rfl rfl rfl rfl rfl rfl rfl rfl rfl rfl rfl
  | din _ => exact R hc rfl rfl rfl rfl rfl rfl rfl rfl rfl rfl rfl rfl rfl rfl rfl rfl rfl rfl rfl
  | key _ _ => exact R hc rfl (by simp) rfl rfl rfl rfl rfl rfl rfl rfl rfl rfl rfl rfl rfl rfl rfl rfl rfl

end Sys2Proof.Machine
end

