-- ==== Sys2Proof/Tests/Slice0.lean ====
section
/-! SUPPORT. Tests of the model against the spec's own vectors (spec/95_test_vectors.md, named in each), the smoke test of WellFormed, and
for every obligation with hypotheses a witness that meets them, at the ends of their ranges. -/

namespace Sys2Proof.Tests

open Sys2Proof Sys2Proof.Machine

/-! ## WellFormed refuses what is ill-formed -/

theorem test_build_refused :
    Build.wellFormed ⟨19, 32⟩ = false ∧ Build.wellFormed ⟨256, 32⟩ = false ∧ Build.wellFormed ⟨20, 15⟩ = false ∧
    Build.wellFormed ⟨20, 256⟩ = false ∧ Build.wellFormed ⟨20, 16⟩ = true ∧ Build.wellFormed ⟨255, 255⟩ = true := by decide

theorem test_transaction_refused :
    Transaction.wellFormed 0x0300000001#40 = false ∧ Transaction.wellFormed 0x0300000000#40 = true ∧
    Transaction.wellFormed 0x8200000001#40 = true := by decide

theorem test_regName_refused :
    RegName.wellFormed Build.reference (.key 8) = false ∧ RegName.wellFormed Build.reference (.offset 0x00D) = false ∧
    RegName.wellFormed Build.reference (.offset 0x200) = false ∧ RegName.wellFormed Build.reference (.key 7) = true ∧
    RegName.wellFormed Build.reference (.offset 0x1FC) = true := by decide

theorem test_hostOp_refused :
    HostOp.wellFormed Build.reference (.wr (.key 8) 0) = false ∧ HostOp.wellFormed Build.reference (.rd (.offset 2)) = false ∧
    HostOp.wellFormed Build.reference (.setkey 32 (List.replicate 9 0)) = false ∧
    HostOp.wellFormed Build.reference (.setkey 32 (List.replicate 8 0)) = true := by decide

/-! ## Decoding, from the words of rule R81, rule R82, rule R80 and rule R90 -/

theorem test_decode_nop : decode 0b11111111111111111111111111110000#32 = .ok .nop := rfl
theorem test_decode_keygen : decode 0b00000000000000000000000000000001#32 = .ok .keygen := rfl
theorem test_decode_encrypt : decode 0b00000000000000000000000000010010#32 = .ok .encrypt := rfl
theorem test_decode_decrypt : decode 0b00000000000000000000000000000011#32 = .ok .decrypt := rfl
theorem test_decode_clrkey : decode 0b00000000000000000000000000000100#32 = .ok .clrkey := rfl
theorem test_decode_reserved :
    decode 0b00000000000000000000000000000101#32 = .error (.reservedOpcode 5#4) ∧
    decode 0b00000000000000000000000000001111#32 = .error (.reservedOpcode 15#4) := ⟨rfl, rfl⟩
theorem test_decodeTableWord :
    decodeTableWord 32 4 = some .clrkey ∧ decodeTableWord 32 0xFFFFFFF3 = some .decrypt ∧ decodeTableWord 32 5 = none := by decide
/-- Rule R90: the write of KEY0 is 0xC0dddddddd, the read of DOUT0 0x0C00000000. -/
theorem test_decodeTransaction :
    decodeTransaction 0xC012345678#40 = .ok (.write 0x40 0x12345678) ∧ decodeTransaction 0x0C00000000#40 = .ok (.read 0x0C) ∧
    decodeAddr Build.reference 0x40 = .key 0 ∧ decodeAddr Build.reference 0x0C = .dout 0 := by decide

/-! ## Pure functions -/

/-- V10, V11, V12, V13. -/
theorem test_rotations :
    rol 0x12345678 4 = 0x23456781 ∧ ror 0x12345678 4 = 0x81234567 ∧ rol 0x12345678 0xFFFFFFFF = 0x091A2B3C ∧
    ror 0x12345678 31 = 0x2468ACF0 ∧ rol 0x12345678 32 = 0x12345678 ∧ ror 0xB7E15163 3 = 0x76FC2A2C := by decide

/-- V6, V8, V21. -/
theorem test_quad_lane_rom :
    quad 0x12345678 = 0x4E1E06F8 ∧ quad 0x80000000 = 0x80000000 ∧ lane 0x2A66311C = 0x3BB4E79C ∧ rom 43 = 0x4B32C376 := by decide

/-- V17, V18, V20: the byte order of a word. -/
theorem test_codec :
    bytesToWords [0, 1, 2, 3, 4, 5, 6, 7, 8, 9, 10, 11, 12] = [0x03020100, 0x07060504, 0x0B0A0908, 0x0000000C] ∧
    bytesToWords [] = [0] ∧ bytesToWords [0xAB] = [0x000000AB] ∧ wordsToBytes [0x36A5C38F] = [0x8F, 0xC3, 0xA5, 0x36] := by decide

/-- KG3: the empty key, one round. -/
theorem test_keySchedule_empty :
    keySchedule [] 1 = [0x304F5316, 0x5650BBC6, 0x74713C14, 0xE22C5959, 0xA3A6E44F, 0xC6FB082D] := by decide

/-- KG12: the table of the all-zero 16-byte key, one round. -/
def tableKG12 : List Word := [0xF71DCC57, 0x1962DACA, 0x115A6899, 0x45500418, 0x75E7DD4F, 0x5D270D8F]

/-- EN3, EN4. -/
theorem test_encryptBlock :
    encryptBlock tableKG12 1 ⟨0, 0, 0, 0⟩ = ⟨0x6D05A9A6, 0xD7CCB041, 0x7689E859, 0x88F3F48E⟩ ∧
    encryptBlock tableKG12 1 ⟨0xFFFFFFFF, 0xFFFFFFFF, 0xFFFFFFFF, 0xFFFFFFFF⟩
      = ⟨0x6D05A9A5, 0x93DDF831, 0x7689E858, 0xED47593A⟩ := by decide

/-- DE5, DE6. -/
theorem test_decryptBlock :
    decryptBlock tableKG12 1 ⟨0, 0, 0, 0⟩ = ⟨0x2DBE71DD, 0x92FA565A, 0xBCE69981, 0x897617A7⟩ ∧
    decryptBlock tableKG12 1 ⟨0xFFFFFFFF, 0xFFFFFFFF, 0xFFFFFFFF, 0xFFFFFFFF⟩
      = ⟨0x98A7BAB9, 0x92FA5659, 0xEFB170FC, 0x897617A6⟩ := by decide

/-! ## One step -/

/-- The state an outcome answers, or the reset state. -/
def after : Host.Outcome State Fault Refusal → State
  | .next t => t
  | .fault _ => State.reset
  | .refused _ => State.reset

/-- A reset state of the reference build, with the given cycles to come. -/
def idle (script : List Pins) : State :=
  State.afterReset Build.reference (Unspecified.zero Build.reference) script 0

/-- An idle state that holds the instance of KG3: SCHED_R = 1, S its table. -/
def keyed (script : List Pins) : State :=
  { idle script with
    status := ⟨false, false, false, true, .none, 1, 0, 0⟩
    S := keySchedule [] 1 ++ List.replicate 38 0 }

/-- The state in which a KEYGEN with the reset configuration has just been accepted. -/
def running (script : List Pins) : State :=
  acceptCommon Instr.keygen.op (endCipher (latchKeygen (idle script)))

/-- A running transform under the table of KG12. -/
def transforming (f : Fsm) (x : Block) (i : Nat) : State :=
  { keyed [] with
    status := ⟨true, false, false, true, .none, 1, f.op, 0⟩
    S := tableKG12 ++ List.replicate 38 0
    WA := x.a, WB := x.b, WC := x.c, WD := x.d, RI := i, fsm := f }

def statusAfter (s : State) : Word := (after (step s)).status.word

/-- X5: a NOP with ignored bits set changes nothing while a KEYGEN runs. -/
theorem test_nop : after (commandWrite 0xFFFFFFF0 (running [])) = running [] := by decide

/-- KG13, KG14: KEYGEN accepted from reset, and rejected with CFG = 0. -/
theorem test_keygen :
    statusAfter (State.reset.withFetchWord 32 1) = 0x00010001 ∧
    statusAfter ({ State.reset with cfg := 0 }.withFetchWord 32 1) = 0x00100014 := by decide

/-- The first row of the phase-2 trace of KG1. -/
theorem test_keygen_tick :
    let s := { running [] with S := romTable Build.reference, fsm := .kgP2 }
    (after (step s)).KA = 0xBF0A8B1D ∧ (after (step s)).KB = 0xB7E15163 ∧ (after (step s)).SI = 1 := by decide

/-- EN12: ENCRYPT from reset is rejected with NOKEY. -/
theorem test_encrypt : statusAfter (State.reset.withFetchWord 32 2) = 0x00200024 := by decide

/-- Round 1 and EN_FIN of the trace of EN3. -/
theorem test_encrypt_ticks :
    (let t := after (step (transforming .enRnd ⟨0, 0xF71DCC57, 0, 0x1962DACA⟩ 1))
     (t.WA, t.WB, t.WC, t.WD) = (0xF71DCC57, 0xD7CCB041, 0x1962DACA, 0x88F3F48E) ∧ t.fsm = .enFin) ∧
    (after (step (transforming .enFin ⟨0xF71DCC57, 0xD7CCB041, 0x1962DACA, 0x88F3F48E⟩ 2))).dout
      = ⟨0x6D05A9A6, 0xD7CCB041, 0x7689E859, 0x88F3F48E⟩ := by decide

/-- EN12 for DECRYPT. -/
theorem test_decrypt : statusAfter (State.reset.withFetchWord 32 3) = 0x00300024 := by decide

/-- Round 1 and DE_FIN of the trace of DE5. -/
theorem test_decrypt_ticks :
    (let t := after (step (transforming .deRnd ⟨0x8A1822B1, 0, 0xA2D8F271, 0⟩ 1))
     (t.WA, t.WB, t.WC, t.WD) = (0x2DBE71DD, 0x8A1822B1, 0xBCE69981, 0xA2D8F271) ∧ t.fsm = .deFin) ∧
    (after (step (transforming .deFin ⟨0x2DBE71DD, 0x8A1822B1, 0xBCE69981, 0xA2D8F271⟩ 0))).dout
      = ⟨0x2DBE71DD, 0x92FA565A, 0xBCE69981, 0x897617A7⟩ := by decide

/-- CK5: CLRKEY in the cycle after a KEYGEN is rejected with BUSY. -/
theorem test_clrkey : statusAfter ((running []).withFetchWord 32 4) = 0x00410035 := by decide

/-- X4, X7: BADCMD, and BADCMD before BUSY. -/
theorem test_badCommand :
    statusAfter (State.reset.withFetchWord 32 0xF) = 0x00F00044 ∧ statusAfter ((running []).withFetchWord 32 5) = 0x00510045 := by decide

/-- The example of rule R189 and X10: a W1C of ERR in STATUS = 0x00240026 leaves 0x00040002. -/
theorem test_w1c :
    let st : Status := ⟨false, true, true, false, .noKey, 0, 4, 2⟩
    st.word = 0x00240026 ∧ (st.w1c 0x4).word = 0x00040002 := by decide

/-- X1, X2: reads of ID, PARAM, CMD, KEY0 and a reserved address. -/
theorem test_reads :
    busRead State.reset 0 = 0x52433601 ∧ busRead State.reset 1 = 0x05202014 ∧ busRead State.reset 2 = 0 ∧
    busRead State.reset 0x40 = 0 ∧ busRead State.reset 0x7F = 0 := by decide

/-- R230: a reset cycle while a KEYGEN runs. -/
theorem test_reset :
    let t := after (step { running [] with script := [resetPins] })
    t.status.word = 0 ∧ t.fsm = .idle ∧ t.draws = 1 := by decide

/-! ## Witnesses of the hypotheses of the obligations -/

theorem idle_wf (script : List Pins) : (idle script).Wf :=
  wf_afterReset (by decide) _ (by simp [Unspecified.zero]) (by simp [Unspecified.zero]) _ _

theorem running_wf (script : List Pins) : (running script).Wf :=
  (BusEffect.keygen rfl (by rfl)).wf (idle_wf script)

theorem keyed_wf (script : List Pins) : (keyed script).Wf := by
  have hb : Build.reference.wellFormed = true := by decide
  have hs : (keySchedule [] 1 ++ List.replicate 38 0).length = Build.reference.sLen := by decide
  refine wf_mk_idle hb (by simp [keyed, idle, State.afterReset]) hs (by simp [keyed, idle, State.afterReset, Unspecified.zero]) rfl ?_ rfl
  constructor <;> simp [keyed, idle, State.afterReset, Build.reference]

theorem keyed_tableInv (script : List Pins) : (keyed script).TableInv where
  valid := by
    have hS : (keySchedule [] 1 ++ List.replicate 38 0).take 6 = keySchedule [] 1 := by decide
    exact fun _ => ⟨[], Nat.zero_le _, hS⟩
  building := by simp [keyed, idle, State.afterReset, Fsm.op, Instr.op]

theorem running_tableInv (script : List Pins) : (running script).TableInv where
  valid := by simp [running]
  building := by
    have hL : (loadL Build.reference.cMax (List.replicate Build.reference.cMax 0) (0x10#8).toNat).take 4
        = bytesToWords (List.replicate 16 0) := by decide
    refine fun _ => ⟨List.replicate 16 0, by simp [running, idle, State.afterReset, Build.reference], rfl, ?_, rfl⟩
    have h1 : (running script).L = loadL Build.reference.cMax (List.replicate Build.reference.cMax 0) (0x10#8).toNat := by
      simp [running, keyLength, idle, State.afterReset]
    have h2 : (running script).CL = 4 := by simp [running, keyLength, keyWordCount, idle, State.afterReset]
    rw [h1, h2, hL]

/-- The pins of a CMD write of a command word. -/
def cmdPins (v : Word) : Pins := Access.pins (.write 0x02 v)

theorem cmdPins_commands : commands Build.reference .keygen (cmdPins 1) ∧ commands Build.reference .encrypt (cmdPins 2) ∧
    commands Build.reference .decrypt (cmdPins 3) ∧ commands Build.reference .clrkey (cmdPins 4) ∧
    commands Build.reference .nop (cmdPins 0) :=
  ⟨⟨2, 1, rfl, rfl, rfl⟩, ⟨2, 2, rfl, rfl, rfl⟩, ⟨2, 3, rfl, rfl, rfl⟩, ⟨2, 4, rfl, rfl, rfl⟩, ⟨2, 0, rfl, rfl, rfl⟩⟩

theorem witness_CommandDecodeAndEncodeAgree : decode 0xFFFFFFF4#32 = .ok .clrkey := rfl

theorem witness_ReservedOpcodesAreRejectedWithBadCmd :
    5 ≤ ((0x00000005#32).extractLsb' 0 4).toNat ∧ 5 ≤ ((0xFFFFFFFF#32).extractLsb' 0 4).toNat := by decide

theorem witness_TransactionDecodeAndEncodeAgree :
    encodeTransaction (.read 0x7F) = some 0x7F00000000#40 ∧ encodeTransaction (.write 0x00 0xFFFFFFFF) = some 0x80FFFFFFFF#40 ∧
    Transaction.wellFormed 0x7F00000000#40 = true ∧ Transaction.wellFormed 0x80FFFFFFFF#40 = true ∧
    Transaction.wellFormed 0x7F80000000#40 = false := by decide

/-- Of AddressDecodeIsTotal, BusReadReturnsTheRegister and WritesToReadOnlyAndReservedAreIgnored: the ends of each range of addresses. -/
theorem witness_addresses :
    Build.reference.wellFormed = true ∧ Build.wellFormed ⟨255, 255⟩ = true ∧ Build.cMax ⟨255, 255⟩ = 64 ∧
    0 < Build.reference.cMax ∧ 7 < Build.reference.cMax ∧
    (0x10 ≤ (0x10#7).toNat ∧ (0x10#7).toNat < 0x40) ∧ (0x10 ≤ (0x3F#7).toNat ∧ (0x3F#7).toNat < 0x40) ∧
    0x40 + Build.reference.cMax ≤ (0x48#7).toNat ∧ 0x40 + Build.reference.cMax ≤ (0x7F#7).toNat ∧
    (0x0C ≤ (0x0C#7).toNat ∧ (0x0F#7).toNat ≤ 0x0F) := by decide

theorem witness_StepRunsTheDecodedCommand :
    (idle [cmdPins 1]).script = Access.pins (.write 0x02 1) :: [] ∧ decode 1 = .ok .keygen ∧
    decodeTableWord 32 1 = some .keygen ∧ decodeTableWord 32 0 = some .nop ∧ decodeTableWord 32 4 = some .clrkey := by decide

/-- Of the first clause (IDLE) and the second (a running command, an access that is rejected). -/
theorem witness_BusEffectsAndTickAreDisjoint :
    ((idle [cmdPins 1]).Wf ∧ (idle [cmdPins 1]).script = cmdPins 1 :: [] ∧ (cmdPins 1).rstN = true ∧
      busEffects (idle [cmdPins 1]) (cmdPins 1).access = .next (running [cmdPins 1]) ∧ (idle [cmdPins 1]).fsm = .idle) ∧
    ((running [cmdPins 1]).Wf ∧ (running [cmdPins 1]).fsm ≠ .idle ∧
      busEffects (running [cmdPins 1]) (cmdPins 1).access = .next (reject .busy 1 (running [cmdPins 1]))) :=
  ⟨⟨idle_wf _, rfl, rfl, rfl, rfl⟩, running_wf _, by simp [running], rfl⟩

/-- The four completions; of the second clause, IDLE. -/
theorem witness_CompletionBeatsClearOfDone :
    let p := Access.pins (.write 0x03 0x2)
    (p.access = .write 0x03 0x2 ∧ (0x2#32).getLsbD 1 = true ∧ (idle [p]).fsm.completes = false) ∧
    (∀ f : Fsm, f = .kgFin ∨ f = .enFin ∨ f = .deFin ∨ f = .ckFin → f.completes = true) ∧ p.rstN = true ∧
    ({ running [p] with fsm := .kgFin } : State).script = p :: [] := by
  refine ⟨⟨rfl, by decide, rfl⟩, ?_, rfl, rfl⟩
  rintro f (rfl | rfl | rfl | rfl) <;> rfl

theorem witness_IdleEngineChangesNothing :
    (idle [Access.pins (.read 3)]).script = Access.pins (.read 3) :: [] ∧ (Access.pins (.read 3)).rstN = true ∧
    (idle [Access.pins (.read 3)]).fsm = .idle ∧ ∀ a v, (Access.pins (.read 3)).access ≠ .write a v :=
  ⟨rfl, rfl, rfl, fun _ _ h => nomatch h⟩

theorem witness_ResetEdgeLoadsResetValues :
    (running [resetPins]).script = resetPins :: [] ∧ resetPins.rstN = false := ⟨rfl, rfl⟩

theorem witness_DinAndKeyStoreTheWholeWord :
    (idle []).Wf ∧ 0 < (idle []).build.cMax ∧ 7 < (idle []).build.cMax ∧ (running []).Wf ∧ (1 : Fin 4) ≠ 0 :=
  ⟨idle_wf _, by decide, by decide, running_wf _, by decide⟩

theorem witness_NopChangesNothing : (0xFFFFFFF0#32).extractLsb' 0 4 = 0#4 := by decide

/-- The legal clause at 1 and 20 rounds and at 0 and 32 bytes; the other at 0 and 21 rounds and at 33 bytes. -/
theorem witness_KeygenIsAcceptedAndLatchesItsInputs :
    (idle []).status.busy = false ∧
    (∀ c k, (c, k) = (1#8, 0#8) ∨ (c, k) = (20#8, 32#8) →
      1 ≤ c.toNat ∧ c.toNat ≤ (idle []).build.rMax ∧ k.toNat ≤ (idle []).build.keyBytesMax) ∧
    (∀ c k, (c, k) = (0#8, 16#8) ∨ (c, k) = (21#8, 16#8) ∨ (c, k) = (20#8, 33#8) →
      ¬(1 ≤ c.toNat ∧ c.toNat ≤ (idle []).build.rMax ∧ k.toNat ≤ (idle []).build.keyBytesMax)) := by
  refine ⟨rfl, ?_, ?_⟩
  · rintro c k (h | h) <;> (simp only [Prod.mk.injEq] at h; obtain ⟨rfl, rfl⟩ := h; decide)
  · rintro c k (h | h | h) <;> (simp only [Prod.mk.injEq] at h; obtain ⟨rfl, rfl⟩ := h; decide)

/-- Of EncryptIsAcceptedAndLatchesTheBlock, DecryptIsAcceptedAndLatchesTheBlock and ClrkeyIsAcceptedAndZeroesKey. -/
theorem witness_transform_acceptance :
    ((keyed []).status.busy = false ∧ (keyed []).status.keyValid = true) ∧
    ((idle []).status.busy = false ∧ (idle []).status.keyValid = false) := ⟨⟨rfl, rfl⟩, rfl, rfl⟩

/-- Each arm of RejectionPriorityAndEffect is met. -/
theorem witness_RejectionPriorityAndEffect :
    after (commandWrite 0x10 (idle [])) = idle [] ∧
    (after (commandWrite 0x5 (running []))).status.errCode = .badCmd ∧
    (after (commandWrite 0x2 { running [] with cfg := 0 })).status.errCode = .busy ∧
    (after (commandWrite 0x1 { idle [] with cfg := 0 })).status.errCode = .config ∧
    (after (commandWrite 0x3 (idle []))).status.errCode = .noKey ∧
    (after (commandWrite 0x4 (idle []))).status.activeOp = 4 := by decide

theorem witness_CommandWhileBusyIsLost : (running []).status.busy = true ∧ Instr.clrkey ≠ .nop := by decide

/-- Of KeygenTicks, EncryptTicks, DecryptTicks and ClrkeyTicks: an idle cycle in every FSM state. -/
theorem witness_ticks :
    ∀ f : Fsm, ({ running [Access.pins .idle] with fsm := f } : State).script = Access.pins .idle :: [] ∧
      ({ running [Access.pins .idle] with fsm := f } : State).fsm = f := fun _ => ⟨rfl, rfl⟩

theorem noReset_one (s : State) (v : Word) (h : s.script = [cmdPins v]) : s.NoReset := by
  intro p hp
  rw [h] at hp
  obtain rfl : p = cmdPins v := by simpa using hp
  rfl

/-- The ends of the legal range: one round and the empty key, 20 rounds and 32 bytes. -/
theorem witness_KeygenComputesTheKeySchedule :
    ∀ c k : BitVec 8, (c, k) = (1#8, 0#8) ∨ (c, k) = (20#8, 32#8) →
      let s : State := { idle [cmdPins 1] with cfg := c, keylen := k }
      s.Wf ∧ s.NoReset ∧ s.script = cmdPins 1 :: [] ∧ commands s.build .keygen (cmdPins 1) ∧ s.fsm = .idle ∧
      1 ≤ s.cfg.toNat ∧ s.cfg.toNat ≤ s.build.rMax ∧ s.keylen.toNat ≤ s.build.keyBytesMax := by
  have hw : ∀ c k, ({ idle [cmdPins 1] with cfg := c, keylen := k } : State).Wf := fun c k =>
    (BusEffect.keylen (s := { idle [cmdPins 1] with cfg := c }) k).wf ((BusEffect.cfg (s := idle [cmdPins 1]) c).wf (idle_wf _))
  rintro c k (h | h) <;>
    (simp only [Prod.mk.injEq] at h; obtain ⟨rfl, rfl⟩ := h
     exact ⟨hw _ _, noReset_one _ _ rfl, rfl, cmdPins_commands.1, rfl, by decide, by decide, by decide⟩)

theorem witness_EncryptComputesTheCiphertext :
    let s := keyed [cmdPins 2]
    s.Wf ∧ s.NoReset ∧ s.script = cmdPins 2 :: [] ∧ commands s.build .encrypt (cmdPins 2) ∧ s.fsm = .idle ∧
      s.status.keyValid = true :=
  ⟨keyed_wf _, noReset_one _ _ rfl, rfl, cmdPins_commands.2.1, rfl, rfl⟩

theorem witness_DecryptComputesThePlaintext :
    let s := keyed [cmdPins 3]
    s.Wf ∧ s.NoReset ∧ s.script = cmdPins 3 :: [] ∧ commands s.build .decrypt (cmdPins 3) ∧ s.fsm = .idle ∧
      s.status.keyValid = true :=
  ⟨keyed_wf _, noReset_one _ _ rfl, rfl, cmdPins_commands.2.2.1, rfl, rfl⟩

theorem witness_ClrkeyZeroesTheKeyState :
    let s := keyed [cmdPins 4]
    s.Wf ∧ s.NoReset ∧ s.script = cmdPins 4 :: [] ∧ commands s.build .clrkey (cmdPins 4) ∧ s.fsm = .idle ∧
      (∀ q ∈ ([] : List Pins), writesKey s.build q = false) :=
  ⟨keyed_wf _, noReset_one _ _ rfl, rfl, cmdPins_commands.2.2.2.1, rfl, by simp⟩

/-- A command of each kind is accepted and BUSY after its cycle. -/
theorem witness_CommandsTakeTheReferenceTicks :
    (after (step (keyed [cmdPins 1]))).status.busy = true ∧ (after (step (keyed [cmdPins 2]))).status.busy = true ∧
    (after (step (keyed [cmdPins 3]))).status.busy = true ∧ (after (step (keyed [cmdPins 4]))).status.busy = true ∧
    (keyed [cmdPins 1]).Wf ∧ (keyed [cmdPins 1]).NoReset ∧ (keyed [cmdPins 1]).fsm = .idle :=
  ⟨by decide, by decide, by decide, by decide, keyed_wf _, noReset_one _ _ rfl, rfl⟩

theorem witness_AcceptedCommandsComplete :
    (running []).Wf ∧ (running []).status.busy = true ∧ ∀ p ∈ [Access.pins .idle, cmdPins 4], p.rstN = true :=
  ⟨running_wf _, rfl, by decide⟩

/-- The two clauses of the rotations, the sum of amounts and the codec, at the ends of their ranges. -/
theorem witness_pure_functions :
    (0 % 32 = 0 ∧ 32 % 32 = 0) ∧ (1 % 32 ≠ 0 ∧ 31 % 32 ≠ 0 ∧ 0xFFFFFFFF % 32 ≠ 0) ∧ (31 < 32 ∧ 0 < 32) ∧ (1 ≤ 1 ∧ 5 < 2 * 1 + 4) ∧
    ([0#32] ≠ [] ∧ (List.replicate 16 0#8).length = 16) ∧
    ((List.replicate 4 0#8).length % 4 = 0 ∧ List.replicate 4 0#8 ≠ []) ∧ (4 ≤ 4 ∧ 0 ≤ 4) := by decide

/-- Of MaskedLoadIsTheWordPacking: the first and the last byte of a two-word key, and the lengths 0 and 8. -/
theorem witness_MaskedLoadIsTheWordPacking :
    let key : List Word := [1, 2]
    (0 < key.length ∧ 1 < key.length ∧ 0 < 4 ∧ 3 < 4) ∧ (0 ≤ 4 * key.length ∧ 8 ≤ 4 * key.length ∧ 1 ≤ key.length) := by decide

theorem witness_StepKeepsTheControlWellFormed :
    (running []).Wf ∧ step (running []) = .next (after (step (running []))) ∧
    (idle [resetPins]).Wf ∧ step (idle [resetPins]) = .next (after (step (idle [resetPins]))) :=
  ⟨running_wf _, rfl, idle_wf _, rfl⟩

/-- With a valid key, and with a KEYGEN running. -/
theorem witness_StepKeepsTheCipherTable :
    ((keyed []).Wf ∧ (keyed []).TableInv ∧ (keyed []).status.keyValid = true ∧ step (keyed []) = .next (after (step (keyed [])))) ∧
    ((running []).Wf ∧ (running []).TableInv ∧ step (running []) = .next (after (step (running [])))) :=
  ⟨⟨keyed_wf _, keyed_tableInv _, rfl, rfl⟩, running_wf _, running_tableInv _, rfl⟩

theorem witness_CipherTableIsImmutable :
    let s := keyed [cmdPins 2]
    s.Wf ∧ s.status.keyValid = true ∧ s.script = cmdPins 2 :: [] ∧ (cmdPins 2).rstN = true ∧
    ¬(commands s.build .keygen (cmdPins 2)) ∧ ¬(commands s.build .clrkey (cmdPins 2)) := by
  refine ⟨keyed_wf _, rfl, rfl, rfl, ?_, ?_⟩ <;>
    (rintro ⟨a, v, h, -, hd⟩
     have ha : (cmdPins 2).access = .write 2 2 := rfl
     rw [ha] at h
     cases h
     have hi : decode 2 = .ok .encrypt := rfl
     rw [hi] at hd
     cases hd)

theorem witness_KeyValidIsSetOnlyByKeygenCompletion :
    let s : State := { running [] with fsm := .kgFin }
    step s = .next (after (step s)) ∧ s.status.keyValid = false ∧ (after (step s)).status.keyValid = true := by
  exact ⟨rfl, rfl, by decide⟩

theorem witness_OutputChangesOnlyAtCompletion :
    let s := transforming .enFin ⟨1, 2, 3, 4⟩ 2
    step s = .next (after (step s)) ∧ (after (step s)).dout ≠ s.dout := by
  exact ⟨rfl, by decide⟩

/-- Two hosts, one that stages the next block and one that does nothing, on one running command. -/
theorem witness_HostAccessesDoNotAffectARunningCommand :
    let s := running [Access.pins (.write 0x08 7)]
    let s' := running []
    s.Wf ∧ s'.Wf ∧ s.SameCommand s' ∧ s.status.busy = true ∧ (nextPins s).rstN = true ∧ (nextPins s').rstN = true ∧
      step s = .next (after (step s)) ∧ step s' = .next (after (step s')) ∧ (after (step s)).din ≠ (after (step s')).din := by
  refine ⟨running_wf _, running_wf _, ?_, rfl, rfl, rfl, rfl, rfl, by decide⟩
  constructor <;> rfl

/-- Two keys; of the second clause, two working blocks at EN_FIN. -/
theorem witness_KeyMaterialReachesTheHostOnlyThroughOutput :
    (idle []).SameButSecrets { idle [] with key := List.replicate 8 1 } ∧
    (transforming .enFin ⟨1, 2, 3, 4⟩ 2).SameButSecrets (transforming .enFin ⟨5, 6, 7, 8⟩ 2) :=
  ⟨⟨List.replicate 8 1, (idle []).S, (idle []).L, 0, 0, 0, 0, 0, 0, rfl, rfl, rfl, rfl⟩,
    ⟨(idle []).key, tableKG12 ++ List.replicate 38 0, (idle []).L, 5, 6, 7, 8, 0, 0, rfl, rfl, rfl, rfl⟩⟩

theorem witness_UnspecifiedResetValuesAreNeverSeen :
    Build.reference.wellFormed = true ∧ (Unspecified.zero Build.reference).S.length = Build.reference.sLen ∧
    (Unspecified.drawn Build.reference 0).S.length = Build.reference.sLen ∧
    (Unspecified.zero Build.reference).L.length = Build.reference.cMax ∧
    (Unspecified.drawn Build.reference 0).L.length = Build.reference.cMax :=
  ⟨by decide, by simp [Unspecified.zero], by simp [Unspecified.drawn], by simp [Unspecified.zero], by simp [Unspecified.drawn]⟩

/-- Each clause of IrqFollowsDoneAndErr in turn. -/
theorem witness_IrqFollowsDoneAndErr :
    (let s : State := { transforming .enFin ⟨1, 2, 3, 4⟩ 2 with irqEn := ⟨true, false⟩, script := [Access.pins .idle] }
     s.script = Access.pins .idle :: [] ∧ s.fsm.completes = true ∧ s.irqEn.doneIE = true ∧ irq (after (step s)) = true) ∧
    (let s : State := { idle [cmdPins 3] with irqEn := ⟨false, true⟩ }
     after (commandWrite 3 s) = reject .noKey 3 s ∧ s.irqEn.errIE = true ∧ irq (after (step s)) = true) ∧
    (let s : State := { idle [Access.pins (.write 0x03 2)] with status := ⟨false, true, false, false, .none, 0, 1, 0⟩, irqEn := ⟨true, true⟩ }
     irq s = true ∧ s.fsm.completes = false ∧ irq (after (step s)) = false) ∧
    (let s : State := { idle [Access.pins (.write 0x04 0)] with status := ⟨false, true, false, false, .none, 0, 1, 0⟩, irqEn := ⟨true, true⟩ }
     irq s = true ∧ s.fsm.completes = false ∧ irq (after (step s)) = false) ∧
    (let s : State := { keyed [cmdPins 2] with status := ⟨false, true, false, true, .none, 1, 1, 0⟩, irqEn := ⟨true, true⟩ }
     irq s = true ∧ s.fsm = .idle ∧ (after (commandWrite 2 s)).status.busy = true ∧ irq (after (step s)) = false) := by decide

theorem witness_HostMacrosWriteTheirRegisters :
    (idle []).Wf ∧ (HostOp.setkey 32 (List.replicate 8 0)).wellFormed (idle []).build = true ∧
    (HostOp.setkey 0x80000100 []).wellFormed (idle []).build = true := ⟨idle_wf _, by decide, by decide⟩

/-- Each premise of RegisterNamesReachTheirRegisters, at the boundary of its range. -/
theorem witness_RegisterNamesReachTheirRegisters :
    Build.reference.wellFormed = true ∧ (RegName.key 7).wellFormed Build.reference = true ∧
    (RegName.offset 0x1FC).wellFormed Build.reference = true ∧ RegName.key 63 = .key 63 ∧ 0x7F#8 = BitVec.ofNat 8 (0x40 + 63) := by decide

/-- Two tables that agree up to entry 2r+3 and differ above it. -/
theorem witness_TransformsReadOnlyTheInstanceTable :
    ([1, 2, 3, 4, 5, 6, 7] : List Word).take (2 * 1 + 4) = [1, 2, 3, 4, 5, 6, 8].take (2 * 1 + 4) ∧
    ([1, 2, 3, 4, 5, 6, 7] : List Word) ≠ [1, 2, 3, 4, 5, 6, 8] := by decide

end Sys2Proof.Tests
end

section
/-! Proofs of the statements about the address space (spec/20_memory.md), and the lemmas they need. -/

namespace Sys2Proof

theorem decodeAddr_din (b : Build) (q : Fin 4) : decodeAddr b (BitVec.ofNat 7 (0x08 + q.val)) = .din q := by
  fin_cases q <;> rfl

theorem decodeAddr_dout (b : Build) (q : Fin 4) : decodeAddr b (BitVec.ofNat 7 (0x0C + q.val)) = .dout q := by
  fin_cases q <;> rfl

/-- The registers that stand alone at an address of their own, whatever the build (rule R21). -/
theorem decodeAddr_control (b : Build) :
    decodeAddr b 0x00 = .id ∧ decodeAddr b 0x01 = .param ∧ decodeAddr b 0x02 = .cmd ∧ decodeAddr b 0x03 = .status ∧
    decodeAddr b 0x04 = .irqEn ∧ decodeAddr b 0x05 = .cfg ∧ decodeAddr b 0x06 = .keylen :=
  ⟨rfl, rfl, rfl, rfl, rfl, rfl, rfl⟩

namespace Machine

/-- Rule R77: a reset cycle and a cycle with any access both answer a next state. -/
theorem step_isNext (s : State) : ∃ t, step s = .next t := by
  cases hr : (nextPins s).rstN with
  | false => exact ⟨_, step_of_reset hr⟩
  | true =>
    obtain ⟨sb, hb⟩ := busEffects_isNext s (nextPins s).access
    exact ⟨_, step_of_effects hr hb⟩

/-- Settles O6: the map by the decoder's lemmas, one per range of addresses, and the absence of a stop by `step_isNext`. -/
theorem addressDecodeIsTotal : Obligations.AddressDecodeIsTotal := by
  refine ⟨fun b hb => ?_, step_isNext⟩
  obtain ⟨hid, hparam, hcmd, hstatus, hirqEn, hcfg, hkeylen⟩ := decodeAddr_control b
  obtain ⟨-, hmax⟩ := Build.cMax_bounds hb
  exact ⟨hid, hparam, hcmd, hstatus, hirqEn, hcfg, hkeylen,
    fun q => ⟨decodeAddr_din b q, decodeAddr_dout b q⟩,
    fun _ hk => decodeAddr_key hmax hk,
    fun _ ha => decodeAddr_reserved ha⟩

end Machine
end Sys2Proof
end

section
/-! Proofs of the statements about the command word (spec/30_encoding.md), and the lemmas they need. -/

namespace Sys2Proof

/-- Rule R81: the opcode is read from bits 3:0, so a mask that keeps those bits keeps it. -/
theorem opField_and_low4 (v : Word) : opField (v &&& 0x0000000F#32) = opField v := by
  have hmask : opField 0x0000000F#32 = BitVec.allOnes 4 := rfl
  calc opField (v &&& 0x0000000F#32)
      = opField v &&& opField 0x0000000F#32 := BitVec.extractLsb'_and
    _ = opField v := by rw [hmask, BitVec.and_allOnes]

/-- Rule R81: the decoder looks at no other bits than OP. -/
theorem decode_eq_of_opField_eq {v w : Word} (h : opField v = opField w) : decode v = decode w := by
  simp only [decode, h]

theorem decode_of_decodeOp_some {v : Word} {i : Instr} (h : decodeOp (opField v) = some i) : decode v = .ok i := by
  simp only [decode, h]

theorem decode_of_decodeOp_none {v : Word} (h : decodeOp (opField v) = none) :
    decode v = .error (.reservedOpcode (opField v)) := by
  simp only [decode, h]

/-- Rule R83: the reserved opcodes are exactly 0x5 to 0xF. -/
theorem decodeOp_eq_none_iff (op : BitVec 4) : decodeOp op = none ↔ 5 ≤ op.toNat := by
  obtain ⟨i, rfl, hi⟩ | ⟨hop, hnone⟩ := decodeOp_cases op
  · have hlt : i.op.toNat < 5 := by cases i <;> decide
    rw [hi]
    exact iff_of_false (Option.some_ne_none i) (Nat.not_le.mpr hlt)
  · exact iff_of_true hnone hop

/-- Rule R82: a word is a command exactly if its OP is that command's opcode. -/
theorem decode_eq_ok_iff (v : Word) (i : Instr) : decode v = .ok i ↔ opField v = i.op := by
  constructor
  · intro h
    obtain ⟨j, hop, hj⟩ | ⟨-, hnone⟩ := decodeOp_cases (opField v)
    · rw [decode_of_decodeOp_some hj] at h
      cases h
      exact hop
    · rw [decode_of_decodeOp_none hnone] at h
      cases h
  · intro h
    exact decode_of_decodeOp_some (h ▸ decodeOp_op i)

namespace Machine

/-- Rule R81: the effect of a CMD write depends on the OP of its word alone. -/
theorem commandWrite_eq_of_opField_eq {v w : Word} (h : opField v = opField w) (s : State) :
    commandWrite v s = commandWrite w s := by
  simp only [commandWrite, badCommand, decode_eq_of_opField_eq h, h]

/-- Rule R205: the rejection of a reserved opcode, in any state. -/
theorem commandWrite_of_reserved {v : Word} (h : 5 ≤ (opField v).toNat) (s : State) :
    commandWrite v s = .next (reject .badCmd (opField v) s) := by
  have hdecode := decode_of_decodeOp_none ((decodeOp_eq_none_iff _).mpr h)
  simp only [commandWrite, hdecode, badCommand]

/-- Settles O3: the rejection by `commandWrite_of_reserved`, and NOP by the characterisation of the decoder. -/
theorem reservedOpcodesAreRejectedWithBadCmd : Obligations.ReservedOpcodesAreRejectedWithBadCmd :=
  ⟨fun _ s hop => commandWrite_of_reserved hop s, rfl, fun v => decode_eq_ok_iff v .nop⟩

/-- Settles O1: masking bits 31:4 keeps OP, and the write depends on nothing else of the word. -/
theorem upperCommandBitsAreIgnored : Obligations.UpperCommandBitsAreIgnored :=
  fun v s => commandWrite_eq_of_opField_eq (opField_and_low4 v).symm s

end Machine
end Sys2Proof
end

section
/-! Proofs of the statements about the datapath primitives (spec/40_primitives.md), and the lemmas they need. -/

namespace Sys2Proof.Machine

/-- Rule R103: the amount of a right rotation is reduced first. -/
theorem ror_mod (x : Word) (n : Nat) : ror x (n % 32) = ror x n := by
  simp only [ror, Nat.mod_mod]

/-- Rule R104: the amount of a left rotation is reduced first. -/
theorem rol_mod (x : Word) (n : Nat) : rol x (n % 32) = rol x n := by
  simp only [rol, Nat.mod_mod]

theorem ror_eq_self {n : Nat} (h : n % 32 = 0) (x : Word) : ror x n = x := if_pos h

theorem rol_eq_self {n : Nat} (h : n % 32 = 0) (x : Word) : rol x n = x := by
  simp only [rol, h, Nat.sub_zero, Nat.mod_self, ror_eq_self]

theorem ror_eq_shifts {n : Nat} (h : n % 32 ≠ 0) (x : Word) :
    ror x n = (x >>> (n % 32)) ||| (x <<< (32 - n % 32)) := if_neg h

theorem rol_eq_shifts (x : Word) (n : Nat) : rol x n = (x <<< (n % 32)) ||| (x >>> (32 - n % 32)) := by
  rw [rol_eq_rotateLeft, BitVec.rotateLeft_def]

/-- The complement of the complement of an amount is the amount, so R104 holds in the other direction too. -/
theorem ror_eq_rol_complement (x : Word) (n : Nat) : ror x n = rol x (32 - n % 32) := by
  have hcomplement : (32 - (32 - n % 32) % 32) % 32 = n % 32 := by omega
  rw [rol, hcomplement, ror_mod]

/-- Counted from the top, bit i of a left rotation is bit i + n modulo 32. -/
theorem getMsbD_rol (x : Word) {i : Nat} (hi : i < 32) (n : Nat) : (rol x n).getMsbD i = x.getMsbD ((n + i) % 32) := by
  rw [rol_eq_rotateLeft, BitVec.getMsbD_rotateLeft, decide_eq_true hi, Bool.true_and]

/-- Left rotations add, whatever their amounts. -/
theorem rol_rol (x : Word) (a b : Nat) : rol (rol x a) b = rol x (a + b) := by
  apply BitVec.eq_of_getMsbD_eq
  intro i hi
  have hindex : (a + (b + i) % 32) % 32 = (a + b + i) % 32 := by omega
  rw [getMsbD_rol _ hi, getMsbD_rol _ (Nat.mod_lt _ (by decide)), getMsbD_rol _ hi, hindex]

theorem rol_ror (x : Word) (n : Nat) : rol (ror x n) n = x := by
  rw [ror_eq_rol_complement, rol_rol]
  exact rol_eq_self (by omega) x

theorem ror_rol (x : Word) (n : Nat) : ror (rol x n) n = x := by
  rw [ror_eq_rol_complement, rol_rol]
  exact rol_eq_self (by omega) x

/-- Settles O38: the complement is the definition of `rol`, and each rotator has a lemma for the identity and one for the shifts. -/
theorem rotationsAreTheirShiftFormulas : Obligations.RotationsAreTheirShiftFormulas :=
  fun x n => ⟨rfl, fun h => ⟨rol_eq_self h x, ror_eq_self h x⟩, fun h => ⟨rol_eq_shifts x n, ror_eq_shifts h x⟩⟩

/-- Settles O39: a right rotation is the left rotation by the complement, and left rotations add modulo 32. -/
theorem rotationLaws : Obligations.RotationLaws :=
  fun x n a b => ⟨rol_ror x n, ror_rol x n, (rol_mod x n).symm, rol_eq_self rfl x, ror_eq_self rfl x,
    fun _ _ => (rol_rol x a b).symm⟩

/-- The full mask of `leWord_mask`: a word is the word of its own bytes. -/
theorem leWord_byteOf (x : Word) : leWord (byteOf x 0) (byteOf x 1) (byteOf x 2) (byteOf x 3) = x := by
  have hones : leWord 0xFF#8 0xFF#8 0xFF#8 0xFF#8 = BitVec.allOnes 32 := by decide
  have hbyte : ∀ b : Byte, b &&& 0xFF#8 = b := fun _ => BitVec.and_allOnes
  have hmask := leWord_mask x 0xFF#8 0xFF#8 0xFF#8 0xFF#8
  simp only [hones, BitVec.and_allOnes, hbyte] at hmask
  exact hmask.symm

/-- A byte of the word lies in its own part of the concatenation: the parts below it are skipped. -/
theorem wordBytes_leWord (b0 b1 b2 b3 : Byte) : wordBytes (leWord b0 b1 b2 b3) = [b0, b1, b2, b3] := by
  have hskip {w : Nat} (hi : BitVec w) (lo : Byte) (m : Nat) :
      (hi ++ lo).extractLsb' (8 * (m + 1)) 8 = hi.extractLsb' (8 * m) 8 :=
    BitVec.extractLsb'_append_eq_of_le (by omega)
  have hbyte0 {w : Nat} (hi : BitVec w) (lo : Byte) : (hi ++ lo).extractLsb' (8 * 0) 8 = lo :=
    BitVec.extractLsb'_append_eq_right
  simp only [wordBytes, byteOf, leWord]
  rw [hbyte0, hskip _ _ 0, hbyte0, hskip _ _ 1, hskip _ _ 0, hbyte0, hskip _ _ 2, hskip _ _ 1, hskip _ _ 0]
  rw [Nat.mul_zero, BitVec.extractLsb'_eq_self]

theorem byteOrZero_of_getElem? {bs : List Byte} {p : Nat} {x : Byte} (h : bs[p]? = some x) : byteOrZero bs p = x := by
  rw [byteOrZero, List.getD_eq_getElem?_getD, h, Option.getD_some]

theorem wordAt_bytesToWords {bs : List Byte} {j : Nat} (hj : j < keyWordCount bs.length) :
    wordAt (bytesToWords bs) j =
      leWord (byteOrZero bs (4 * j)) (byteOrZero bs (4 * j + 1)) (byteOrZero bs (4 * j + 2)) (byteOrZero bs (4 * j + 3)) := by
  rw [wordAt_of_lt (by rwa [bytesToWords_length])]
  simp only [bytesToWords, List.getElem_map, List.getElem_range]

/-- Rule R108: byte m of key word j is key byte 4j + m, or 0 past the end of the key. -/
theorem byteOf_wordAt_bytesToWords {bs : List Byte} {j m : Nat} (hj : j < keyWordCount bs.length) (hm : m < 4) :
    byteOf (wordAt (bytesToWords bs) j) m = byteOrZero bs (4 * j + m) := by
  have hbytes := wordBytes_leWord (byteOrZero bs (4 * j)) (byteOrZero bs (4 * j + 1)) (byteOrZero bs (4 * j + 2))
    (byteOrZero bs (4 * j + 3))
  rw [← wordAt_bytesToWords hj] at hbytes
  simp only [wordBytes, List.cons.injEq] at hbytes
  obtain ⟨h0, h1, h2, h3, -⟩ := hbytes
  match m, hm with
  | 0, _ => exact h0
  | 1, _ => exact h1
  | 2, _ => exact h2
  | 3, _ => exact h3

theorem bytesToWords_wordsToBytes {ws : List Word} (h : ws ≠ []) : bytesToWords (wordsToBytes ws) = ws := by
  have hpos : 1 ≤ ws.length := List.length_pos_iff.mpr h
  have hlen : keyWordCount (wordsToBytes ws).length = ws.length := by
    rw [wordsToBytes_length, keyWordCount]
    omega
  apply List.ext_getElem (by rw [bytesToWords_length, hlen])
  intro j hj hj'
  have hbyte (m : Nat) (hm : m < 4) : byteOrZero (wordsToBytes ws) (4 * j + m) = byteOf ws[j] m := by
    rw [byteOrZero_of_getElem? (wordsToBytes_get ws j m hj' hm), wordAt_of_lt hj']
  rw [← wordAt_of_lt hj, wordAt_bytesToWords (hlen ▸ hj'), hbyte 1 (by decide), hbyte 2 (by decide), hbyte 3 (by decide),
    ← Nat.add_zero (4 * j), hbyte 0 (by decide), leWord_byteOf]

/-- The round trip of a byte string pads it with zero bytes to the end of its last word, or to one whole word. -/
theorem wordsToBytes_bytesToWords (bs : List Byte) :
    wordsToBytes (bytesToWords bs) = bs ++ List.replicate (4 * keyWordCount bs.length - bs.length) 0#8 := by
  have hfit : bs.length ≤ 4 * keyWordCount bs.length := by
    rw [keyWordCount]
    omega
  apply List.ext_getElem
  · rw [wordsToBytes_length, bytesToWords_length, List.length_append, List.length_replicate]
    omega
  · intro p hp _
    rw [wordsToBytes_length, bytesToWords_length] at hp
    have hword : p / 4 < keyWordCount bs.length := by omega
    have hm : p % 4 < 4 := Nat.mod_lt _ (by decide)
    have hget := wordsToBytes_get (bytesToWords bs) (p / 4) (p % 4) (by rwa [bytesToWords_length]) hm
    rw [byteOf_wordAt_bytesToWords hword hm, Nat.div_add_mod] at hget
    obtain ⟨_, hbyte⟩ := List.getElem?_eq_some_iff.mp hget
    rw [hbyte, List.getElem_append]
    split
    · next h => exact byteOrZero_of_getElem? (List.getElem?_eq_getElem h)
    · next h =>
      rw [List.getElem_replicate]
      exact List.getD_eq_default _ _ (Nat.le_of_not_lt h)

theorem wordsToBytes_bytesToWords_eq_self_iff (bs : List Byte) :
    wordsToBytes (bytesToWords bs) = bs ↔ bs.length % 4 = 0 ∧ bs ≠ [] := by
  rw [wordsToBytes_bytesToWords, List.append_right_eq_self, List.replicate_eq_nil_iff, ← List.length_pos_iff, keyWordCount]
  omega

/-- Rule R66: the block mapping is the word codec on four words. -/
theorem bytesToWords_of_length_16 {bs : List Byte} (h : bs.length = 16) :
    bytesToWords bs = [(blockOfBytes bs).a, (blockOfBytes bs).b, (blockOfBytes bs).c, (blockOfBytes bs).d] := by
  have hcount : keyWordCount bs.length = 4 := by rw [h]; rfl
  rw [bytesToWords, hcount]
  rfl

theorem bytesOfBlock_blockOfBytes {bs : List Byte} (h : bs.length = 16) : bytesOfBlock (blockOfBytes bs) = bs := by
  have hne : bs ≠ [] := List.ne_nil_of_length_pos (by omega)
  rw [bytesOfBlock, ← bytesToWords_of_length_16 h]
  exact (wordsToBytes_bytesToWords_eq_self_iff bs).mpr ⟨by omega, hne⟩

theorem blockOfBytes_bytesOfBlock (x : Block) : blockOfBytes (bytesOfBlock x) = x := by
  have hlen : (bytesOfBlock x).length = 16 := wordsToBytes_length _
  have hwords : bytesToWords (bytesOfBlock x) = [x.a, x.b, x.c, x.d] := bytesToWords_wordsToBytes (List.cons_ne_nil _ _)
  rw [bytesToWords_of_length_16 hlen] at hwords
  generalize blockOfBytes (bytesOfBlock x) = y at hwords
  cases x
  cases y
  simpa using hwords

/-- Settles O42: words come back whole, bytes come back padded with zeros, and the block mappings are the codec on four words. -/
theorem wordCodecInverse : Obligations.WordCodecInverse :=
  ⟨fun _ => bytesToWords_wordsToBytes, wordsToBytes_bytesToWords_eq_self_iff, bytesToWords_length, rfl,
    blockOfBytes_bytesOfBlock, fun _ => bytesOfBlock_blockOfBytes⟩

end Sys2Proof.Machine
end

section
/-! Proofs of the statements about the key schedule (spec/41_key_schedule.md), and the lemmas they need: phase 1, the acceptance, the
ticks and the cipher table. -/

namespace Sys2Proof.Machine

/-! ### Phase 1 (rule R125) -/

theorem expand_eq_map_rom {n : Nat} (h : 1 ≤ n) : expand n = (List.range n).map rom := by
  rw [expand, expandRev_eq, List.reverse_reverse, Nat.sub_add_cancel h]

theorem getElem?_expand {n i : Nat} (h : i < n) : (expand n)[i]? = some (rom i) := by
  rw [expand_eq_map_rom (by omega), List.getElem?_map, List.getElem?_range h, Option.map_some]

theorem rom_zero : rom 0 = Config.P := by decide

/-- Settles O40: phase 1 is the ROM table, whose entries are the multiples of Q from P on. -/
theorem phaseOneIsTheRomTable : Obligations.PhaseOneIsTheRomTable := by
  refine ⟨rfl, rfl, fun r =>
    ⟨expand_length (by omega), ?_, fun i h1 hi => ⟨rom (i - 1), ?_, ?_⟩, fun i hi => ⟨?_, rfl⟩⟩⟩
  · rw [getElem?_expand (by omega), rom_zero]
  · exact getElem?_expand (by omega)
  · rw [getElem?_expand hi, ← rom_succ, Nat.sub_add_cancel h1]
  · exact getElem?_expand hi

/-! ### The acceptance of a KEYGEN (rule R121) -/

theorem unlessBusy_of_idle {s : State} (hb : s.status.busy = false) (op : BitVec 4) (f : State → State) :
    unlessBusy op f s = f s := by
  simp [unlessBusy, hb]

theorem exec_keygen_of_idle {s : State} (hb : s.status.busy = false) : exec .keygen s = .next (acceptKeygen s) :=
  congrArg Host.Outcome.next (unlessBusy_of_idle hb _ _)

theorem acceptKeygen_of_legal {s : State} (h : configLegal s = true) :
    acceptKeygen s = acceptCommon Instr.keygen.op (endCipher (latchKeygen s)) := if_pos h

theorem acceptKeygen_of_illegal {s : State} (h : ¬configLegal s = true) :
    acceptKeygen s = reject .config Instr.keygen.op s := if_neg h

/-- Settles O21: with BUSY = 0 the legality of the configuration alone decides between the latching and the CONFIG rejection. -/
theorem keygenIsAcceptedAndLatchesItsInputs : Obligations.KeygenIsAcceptedAndLatchesItsInputs := by
  refine ⟨rfl, fun s hb => ⟨fun hlegal => ?_, fun hillegal => ?_⟩⟩
  · rw [exec_keygen_of_idle hb, acceptKeygen_of_legal ((configLegal_iff s).2 hlegal)]
    rfl
  · rw [exec_keygen_of_idle hb, acceptKeygen_of_illegal (mt (configLegal_iff s).1 hillegal)]
    rfl

/-! ### The ticks of KEYGEN (rule R128 to rule R130) -/

/-- A cycle without an access is the tick alone. -/
theorem step_of_idle_access {s : State} {rest : List Pins} (hs : s.script = Access.pins .idle :: rest) :
    step s = .next { tick s s with script := rest, rdata := 0 } :=
  step_cons hs rfl rfl

theorem tick_kgP1 {s : State} (hf : s.fsm = .kgP1) :
    tick s s = { s with
      S := s.S.set s.SI (rom s.SI)
      SI := if s.SI = s.NL - 1 then 0 else s.SI + 1
      fsm := if s.SI = s.NL - 1 then .kgP2 else .kgP1 } := by
  simp only [tick, hf, tickKgP1]
  split
  · rfl
  · rw [← hf]

theorem tick_kgP2 {s : State} (hf : s.fsm = .kgP2) : tick s s = tickKgP2 s s := by
  simp only [tick, hf]

theorem tick_kgFin {s : State} (hf : s.fsm = .kgFin) : tick s s = tickKgFin s s := by
  simp only [tick, hf]

/-- Settles O27: the cycle is the tick alone, and each tick writes what its rule says. -/
theorem keygenTicks : Obligations.KeygenTicks := by
  refine fun s rest hs => ⟨fun hf => ?_, fun hf => ?_, fun hf => ?_⟩
  · rw [step_of_idle_access hs, tick_kgP1 hf]
    rfl
  · simp only [step_of_idle_access hs, tick_kgP2 hf, tickKgP2, rotAmount_eq_mod]
  · rw [step_of_idle_access hs, tick_kgFin hf]
    rfl

/-! ### The cipher table between a KEYGEN and the next (rule R140) -/

/-- The two states hold the same cipher table: S, SCHED_R and KEY_VALID. -/
def SameCipher (s t : State) : Prop :=
  t.S = s.S ∧ t.status.schedR = s.status.schedR ∧ t.status.keyValid = s.status.keyValid

theorem SameCipher.refl (s : State) : SameCipher s s := ⟨rfl, rfl, rfl⟩

theorem SameCipher.trans {s t u : State} (h : SameCipher s t) (h' : SameCipher t u) : SameCipher s u := by
  obtain ⟨hS, hR, hV⟩ := h
  obtain ⟨hS', hR', hV'⟩ := h'
  exact ⟨hS'.trans hS, hR'.trans hR, hV'.trans hV⟩

theorem sameCipher_w1c (s : State) (v : Word) : SameCipher s { s with status := s.status.w1c v } := by
  unfold SameCipher Status.w1c
  split <;> split <;> exact ⟨rfl, rfl, rfl⟩

theorem sameCipher_writeReg (s : State) (v : Word) (r : Reg) : SameCipher s (writeReg s v r) := by
  cases r with
  | status => exact sameCipher_w1c s v
  | _ => exact ⟨rfl, rfl, rfl⟩

theorem sameCipher_needsKey {f : State → State} {s : State} (op : BitVec 4) (h : SameCipher s (f s)) :
    SameCipher s (needsKey op f s) := by
  unfold needsKey
  split
  · exact h
  · exact ⟨rfl, rfl, rfl⟩

theorem sameCipher_unlessBusy {f : State → State} {s : State} (op : BitVec 4)
    (h : s.status.busy = false → SameCipher s (f s)) : SameCipher s (unlessBusy op f s) := by
  unfold unlessBusy
  split
  · exact ⟨rfl, rfl, rfl⟩
  · next hb => exact h (Bool.eq_false_iff.2 hb)

/-- Of the commands, an accepted KEYGEN and an accepted CLRKEY alone end the cipher table. -/
theorem sameCipher_exec {i : Instr} {s t : State}
    (hk : ¬(s.status.busy = false ∧ i = .keygen ∧ configLegal s = true)) (hc : ¬(s.status.busy = false ∧ i = .clrkey))
    (h : exec i s = .next t) : SameCipher s t := by
  cases i with
  | nop => cases h; exact .refl s
  | keygen =>
    cases h
    refine sameCipher_unlessBusy _ fun hb => ?_
    rw [acceptKeygen_of_illegal fun hl => hk ⟨hb, rfl, hl⟩]
    exact ⟨rfl, rfl, rfl⟩
  | encrypt => cases h; exact sameCipher_unlessBusy _ fun _ => sameCipher_needsKey _ ⟨rfl, rfl, rfl⟩
  | decrypt => cases h; exact sameCipher_unlessBusy _ fun _ => sameCipher_needsKey _ ⟨rfl, rfl, rfl⟩
  | clrkey => cases h; exact sameCipher_unlessBusy _ fun hb => absurd ⟨hb, rfl⟩ hc

/-- The access of a cycle keeps the cipher table, unless it is an accepted KEYGEN or an accepted CLRKEY. -/
theorem sameCipher_busEffects {s t : State} {p : Pins}
    (hk : ¬(s.status.busy = false ∧ commands s.build .keygen p ∧ configLegal s = true))
    (hc : ¬(s.status.busy = false ∧ commands s.build .clrkey p)) (h : busEffects s p.access = .next t) : SameCipher s t := by
  cases ha : p.access with
  | idle => rw [ha] at h; cases h; exact .refl s
  | read a => rw [ha] at h; cases h; exact .refl s
  | write a v =>
    simp only [ha, busEffects] at h
    split at h
    · next hr =>
      cases hd : decode v with
      | error e => simp only [commandWrite, hd] at h; cases h; exact ⟨rfl, rfl, rfl⟩
      | ok i =>
        have hi (j : Instr) (hj : i = j) : commands s.build j p := ⟨a, v, ha, hr, hj ▸ hd⟩
        simp only [commandWrite, hd] at h
        exact sameCipher_exec (fun ⟨hb, hj, hl⟩ => hk ⟨hb, hi _ hj, hl⟩) (fun ⟨hb, hj⟩ => hc ⟨hb, hi _ hj⟩) h
    · cases h
      exact sameCipher_writeReg s v _

/-- The ticks of KEYGEN and of CLRKEY alone write the cipher table. -/
theorem sameCipher_tick {s : State} (t : State) (hk : s.fsm.op ≠ Instr.keygen.op) (hc : s.fsm.op ≠ Instr.clrkey.op) :
    SameCipher t (tick s t) := by
  cases hf : s.fsm with
  | kgP1 | kgP2 | kgFin => exact absurd (by rw [hf]; rfl) hk
  | ckClr | ckFin => exact absurd (by rw [hf]; rfl) hc
  | _ => simp only [tick, hf]; exact ⟨rfl, rfl, rfl⟩

/-- Settles O48: with a valid key no KEYGEN and no CLRKEY runs, so neither the tick nor the access writes the cipher table. -/
theorem cipherTableIsImmutable : Obligations.CipherTableIsImmutable := by
  intro s p rest hw hv hs hr hk hc
  have hnk : s.fsm.op ≠ Instr.keygen.op := fun h => by
    obtain ⟨hv', -⟩ := hw.keygen h
    simp [hv'] at hv
  have hnc : s.fsm.op ≠ Instr.clrkey.op := fun h => by simp [hw.clrkey h] at hv
  obtain ⟨sb, hb⟩ := busEffects_isNext s p.access
  obtain ⟨hS, hR, hV⟩ :=
    (sameCipher_busEffects (by rwa [configLegal_iff]) hc hb).trans (sameCipher_tick sb hnk hnc)
  exact ⟨_, step_cons hs hr hb, hS, hR, hV.trans hv⟩

end Sys2Proof.Machine
end

section
/-! Runs of clock cycles, of any command: a run taken apart at its ends, and the run of a command from its acceptance to its completion. -/

namespace Sys2Proof.Machine

theorem State.NoReset.rstN {s : State} (h : s.NoReset) : (nextPins s).rstN = true := by
  unfold nextPins
  split
  · rfl
  · next p rest hs => exact h p (by rw [hs]; exact List.mem_cons_self)

theorem State.NoReset.of_step {s t : State} (h : s.NoReset) (ht : step s = .next t) : t.NoReset := by
  obtain ⟨hr, -⟩ | ⟨-, sb, -, -, rfl⟩ := step_cases ht
  · exact absurd h.rstN (by rw [hr]; decide)
  · exact fun p hp => h p (List.mem_of_mem_tail hp)

/-- A run taken apart at its first cycle. -/
theorem runCycles_of_step {s t : State} (h : step s = .next t) (k : Nat) : runCycles (k + 1) s = runCycles k t := by
  rw [runCycles, h]

/-- A run taken apart at its last cycle. -/
theorem runCycles_succ {k : Nat} {s u : State} (h : runCycles k s = .next u) : runCycles (k + 1) s = step u := by
  induction k generalizing s with
  | zero =>
    cases h
    obtain ⟨t, ht⟩ := step_isNext u
    rw [runCycles_of_step ht, ht, runCycles]
  | succ k ih =>
    obtain ⟨t, ht⟩ := step_isNext s
    rw [runCycles_of_step ht] at h ⊢
    exact ih h

/-- An invariant kept by every cycle that is no reset while a measure runs down holds until the measure is used up. -/
theorem runCycles_of_measure {P : State → Prop} {μ : State → Nat}
    (hstep : ∀ u, P u → μ u ≠ 0 → (nextPins u).rstN = true → ∃ t, step u = .next t ∧ P t ∧ μ t + 1 = μ u)
    {s : State} (hP : P s) (hn : s.NoReset) :
    ∀ k, k ≤ μ s → ∃ u, runCycles k s = .next u ∧ P u ∧ u.NoReset ∧ μ u + k = μ s := by
  intro k hk
  induction k with
  | zero => exact ⟨s, rfl, hP, hn, rfl⟩
  | succ k ih =>
    obtain ⟨u, hu, hPu, hnu, hμ⟩ := ih (by omega)
    obtain ⟨t, ht, hPt, hμt⟩ := hstep u hPu (by omega) hnu.rstN
    exact ⟨t, by rw [runCycles_succ hu, ht], hPt, hnu.of_step ht, by omega⟩

/-- The run of a command: a cycle that accepts it, cycles that keep P while its ticks μ run down, and the completion cycle. -/
theorem runCycles_of_command {P Q : State → Prop} {μ : State → Nat} {s s₁ : State} (hn : s.NoReset) (hacc : step s = .next s₁)
    (hP : P s₁)
    (hstep : ∀ u, P u → μ u ≠ 0 → (nextPins u).rstN = true → ∃ t, step u = .next t ∧ P t ∧ μ t + 1 = μ u)
    (hlast : ∀ u, P u → μ u = 0 → (nextPins u).rstN = true → ∃ t, step u = .next t ∧ Q t) :
    ∃ N t, runCycles (N + 1) s = .next t ∧ (∀ k, 1 ≤ k → k ≤ N → ∃ u, runCycles k s = .next u ∧ P u) ∧ Q t := by
  have hrun := runCycles_of_measure hstep hP (hn.of_step hacc)
  obtain ⟨u, hu, hPu, hnu, hμ⟩ := hrun (μ s₁) le_rfl
  obtain ⟨t, ht, hQ⟩ := hlast u hPu (by omega) hnu.rstN
  refine ⟨μ s₁ + 1, t, by rw [runCycles_of_step hacc, runCycles_succ hu, ht], fun k h1 hk => ?_, hQ⟩
  obtain ⟨k, rfl⟩ := Nat.exists_eq_add_of_le' h1
  obtain ⟨u, hu, hPu, -⟩ := hrun k (by omega)
  exact ⟨u, by rw [runCycles_of_step hacc, hu], hPu⟩

/-- A cycle of a busy engine: the access leaves what the tick reads, so the cycle is the tick of the state the access leaves. -/
theorem step_of_busy {s : State} (hw : s.Wf) (hb : s.status.busy = true) (hr : (nextPins s).rstN = true) :
    ∃ sb, BusyShape s sb ∧ sb.Wf ∧
      step s = .next { tick sb sb with script := s.script.tail, rdata := cycleRdata s (nextPins s) } := by
  obtain ⟨sb, hsb⟩ := busEffects_isNext s (nextPins s).access
  have heff := busEffects_effect hsb
  have hshape : BusyShape s sb := heff.of_busy hb
  refine ⟨sb, hshape, heff.wf hw, ?_⟩
  rw [step_of_effects hr hsb, commit, tick_of_busyShape hshape]

end Sys2Proof.Machine
end

section
/-! Proof that a KEYGEN computes the key schedule (spec/41_key_schedule.md rule R131): the load of the key words, the ticks, the whole run. -/

namespace Sys2Proof.Machine

/-! ### The key words a KEYGEN loads (rule R123) -/

theorem wordAt_loadL {c : Nat} {key : List Word} {b j : Nat} (hj : j < c) :
    wordAt (loadL c key b) j = wordAt key j &&& keyMask j b := by
  rw [wordAt_of_lt (by rwa [loadL_length])]
  simp only [loadL, List.getElem_map, List.getElem_range]

/-- Byte m of key word j is key byte 4j + m while the key lasts, and 0 after it. -/
theorem byteOrZero_keyBytes {key : List Word} {b j m : Nat} (hj : j < key.length) (hm : m < 4) :
    byteOrZero (keyBytes key b) (4 * j + m) = if 4 * j + m < b then byteOf (wordAt key j) m else 0#8 := by
  rw [byteOrZero, List.getD_eq_getElem?_getD, keyBytes, List.getElem?_take]
  split
  · rw [wordsToBytes_get key j m hj hm, Option.getD_some]
  · rfl

theorem keyBytes_length {key : List Word} {b : Nat} (h : b ≤ 4 * key.length) : (keyBytes key b).length = b := by
  rw [keyBytes, List.length_take, wordsToBytes_length, Nat.min_eq_left h]

/-- The masked load keeps the bytes of a word that belong to the key, as the packing of the key bytes does. -/
theorem masked_word_eq_packed_word {key : List Word} {b j : Nat} (hj : j < key.length) :
    wordAt key j &&& keyMask j b =
      leWord (byteOrZero (keyBytes key b) (4 * j)) (byteOrZero (keyBytes key b) (4 * j + 1))
        (byteOrZero (keyBytes key b) (4 * j + 2)) (byteOrZero (keyBytes key b) (4 * j + 3)) := by
  have hbyte (m : Nat) (hm : m < 4) :
      byteOf (wordAt key j) m &&& maskByte (4 * j + m) b = byteOrZero (keyBytes key b) (4 * j + m) := by
    rw [byteOrZero_keyBytes hj hm]
    exact and_maskByte _ _ _
  rw [keyMask, leWord_mask, ← hbyte 1 (by decide), ← hbyte 2 (by decide), ← hbyte 3 (by decide)]
  exact congrArg (leWord · _ _ _) (hbyte 0 (by decide))

/-- The first c words of the masked load are the word-packing of the key bytes. -/
theorem take_loadL {key : List Word} {b : Nat} (hb : b ≤ 4 * key.length) (hpos : 1 ≤ key.length) :
    (loadL key.length key b).take (keyWordCount b) = bytesToWords (keyBytes key b) := by
  have hcount : keyWordCount b ≤ key.length := by
    rw [keyWordCount]
    omega
  have hlen : (keyBytes key b).length = b := keyBytes_length hb
  apply List.ext_getElem
  · rw [List.length_take, loadL_length, bytesToWords_length, hlen, Nat.min_eq_left hcount]
  · intro j hj hj'
    have hjb : j < keyWordCount b := by rwa [bytesToWords_length, hlen] at hj'
    rw [← wordAt_of_lt hj, ← wordAt_of_lt hj', wordAt_take hjb, wordAt_loadL (by omega), wordAt_bytesToWords (by rwa [hlen]),
      masked_word_eq_packed_word (by omega)]

/-! ### A running KEYGEN -/

theorem Fsm.op_eq_keygen_iff (f : Fsm) : f.op = Instr.keygen.op ↔ f = .kgP1 ∨ f = .kgP2 ∨ f = .kgFin := by
  cases f <;> decide

theorem State.Wf.busy_of_keygen {s : State} (hw : s.Wf) (h : s.fsm.op = Instr.keygen.op) :
    s.status.busy = true ∧ s.status.activeOp = Instr.keygen.op := by
  have hidle : s.fsm ≠ .idle := fun hf => by rw [hf] at h; exact absurd h (by decide)
  exact ⟨hw.busy.2 hidle, (hw.active hidle).trans h⟩

/-- While phase 1 or phase 2 runs, the entry of S that is written is one of the n of the cipher. -/
theorem State.Wf.SI_lt_NL {s : State} (hw : s.Wf) (hf : s.fsm = .kgP1 ∨ s.fsm = .kgP2) : s.SI < s.NL := by
  obtain hf | hf := hf
  · exact (hw.kgP1 hf).1
  · obtain ⟨-, -, -, -, -, hNL, -⟩ := hw.keygen (by rw [hf]; rfl)
    obtain ⟨hSI, -, -⟩ := hw.kgP2 hf
    have hpos := roundKeyCount_pos s.RL.toNat
    rw [hSI]
    exact Nat.mod_lt _ (by omega)

/-- The tick of KG_P1 keeps the control state well formed. -/
theorem wf_tick_kgP1 {s : State} (hw : s.Wf) (hf : s.fsm = .kgP1) : (tick s s).Wf := by
  obtain ⟨hSI, hLJ, hKN, hKA, hKB⟩ := hw.kgP1 hf
  have hop : s.fsm.op = Instr.keygen.op := by rw [hf]; rfl
  obtain ⟨hbusy, hactive⟩ := hw.busy_of_keygen hop
  obtain ⟨-, -, -, -, -, -, hVL⟩ := hw.keygen hop
  have hpos : 0 < s.VL := by rw [hVL, mixCount]; omega
  rw [tick_kgP1 hf]
  split
  · exact wf_mk_kg hw.build hw.keyLen (by simp [hw.sLen]) hw.lLen hbusy hw.status hactive (hw.keygen hop)
      (.inr (.inl ⟨rfl, by simp [hKN], by simp [hLJ, hKN], by simp [hKN, hpos]⟩))
  · exact wf_mk_kg hw.build hw.keyLen (by simp [hw.sLen]) hw.lLen hbusy hw.status hactive (hw.keygen hop)
      (.inl ⟨rfl, by dsimp only; omega, hLJ, hKN, hKA, hKB⟩)

/-- The tick of KG_P2 keeps the control state well formed. -/
theorem wf_tick_kgP2 {s : State} (hw : s.Wf) (hf : s.fsm = .kgP2) : (tick s s).Wf := by
  obtain ⟨hSI, hLJ, hKN⟩ := hw.kgP2 hf
  have hop : s.fsm.op = Instr.keygen.op := by rw [hf]; rfl
  obtain ⟨hbusy, hactive⟩ := hw.busy_of_keygen hop
  rw [tick_kgP2 hf, tickKgP2]
  split
  · exact wf_mk_kg hw.build hw.keyLen (by simp [hw.sLen]) (by simp [hw.lLen]) hbusy hw.status hactive (hw.keygen hop)
      (.inr (.inr rfl))
  · exact wf_mk_kg hw.build hw.keyLen (by simp [hw.sLen]) (by simp [hw.lLen]) hbusy hw.status hactive (hw.keygen hop)
      (.inr (.inl ⟨rfl, by simp [hSI], by simp [hLJ], by dsimp only; omega⟩))

/-- The tick of KG_P1 adds the entry S[SI] to the table of phase 1; the last one leaves the table that phase 2 starts from. -/
theorem building_tick_kgP1 {K : List Byte} {s : State} (hw : s.Wf) (hf : s.fsm = .kgP1) (h : s.Building K) :
    (tick s s).Building K := by
  obtain ⟨hSI, hLJ, hKN, hKA, hKB⟩ := hw.kgP1 hf
  obtain ⟨-, -, hRL, -, -, hNL, -⟩ := hw.keygen (by rw [hf]; rfl)
  have hlen : s.SI < s.S.length := by
    rw [hw.sLen, Build.sLen]
    rw [hNL, roundKeyCount] at hSI
    omega
  simp only [State.Building, hf] at h
  obtain ⟨hCL, hL, hS⟩ := h
  have hS' : (s.S.set s.SI (rom s.SI)).take (s.SI + 1) = (expand s.NL).take (s.SI + 1) := by
    rw [take_succ_set _ hlen, take_succ_wordAt (by rwa [expand_length (by omega)]), hS, wordAt_expand hSI]
  rw [tick_kgP1 hf]
  split
  · next hlast =>
    have hall : (s.S.set s.SI (rom s.SI)).take s.NL = expand s.NL := by
      have hn : s.SI + 1 = s.NL := by omega
      rw [hn] at hS'
      rw [hS', List.take_of_length_le (expand_length (by omega)).le]
    refine ⟨hCL, ?_⟩
    simp only [hKN, hKA, hKB, hLJ, mixLoop, mixStart, ← hNL, hall, hL]
  · exact ⟨hCL, hL, hS'⟩

/-- The tick of KG_P2 is one iteration of the phase-2 loop; the last one leaves the key schedule. -/
theorem building_tick_kgP2 {K : List Byte} {s : State} (hw : s.Wf) (hf : s.fsm = .kgP2) (h : s.Building K) :
    (tick s s).Building K := by
  obtain ⟨-, hLJ, hKN⟩ := hw.kgP2 hf
  obtain ⟨-, -, -, hCLpos, -, hNL, hVL⟩ := hw.keygen (by rw [hf]; rfl)
  have hSIlt : s.SI < s.NL := hw.SI_lt_NL (.inr hf)
  have hLJlt : s.LJ < s.CL := by rw [hLJ]; exact Nat.mod_lt _ (by omega)
  simp only [State.Building, hf] at h
  obtain ⟨hCL, hmix⟩ := h
  have hmix' : mixLoop s.NL s.CL (s.KN + 1) (mixStart s.RL.toNat (bytesToWords K)) =
      ⟨(tickKgP2 s s).S.take s.NL, (tickKgP2 s s).L.take s.CL, (tickKgP2 s s).KA, (tickKgP2 s s).KB,
        (tickKgP2 s s).SI, (tickKgP2 s s).LJ⟩ := by
    rw [mixLoop_succ, hmix]
    simp only [mixStep, wordAt_take hSIlt, wordAt_take hLJlt, ← take_set_eq, tickKgP2]
  rw [tick_kgP2 hf]
  by_cases hlast : s.KN = s.VL - 1
  · have hfsm : (tickKgP2 s s).fsm = .kgFin := if_pos hlast
    have hKN' : s.KN + 1 = mixCount s.CL s.NL := by omega
    simp only [State.Building, hfsm]
    calc (tickKgP2 s s).S.take s.NL
        = (mixLoop s.NL s.CL (s.KN + 1) (mixStart s.RL.toNat (bytesToWords K))).S := by rw [hmix']
      _ = keySchedule K s.RL.toNat := by rw [hKN', hCL, hNL]; rfl
  · have hfsm : (tickKgP2 s s).fsm = .kgP2 := if_neg hlast
    simp only [State.Building, hfsm]
    exact ⟨hCL, hmix'⟩

/-- The ticks of a KEYGEN still to come before its completion tick. -/
def State.keygenTicksLeft (s : State) : Nat :=
  match s.fsm with
  | .kgP1 => s.NL - s.SI + s.VL
  | .kgP2 => s.VL - s.KN
  | _ => 0

/-- The state s stands in the run of the KEYGEN that was accepted in the state s₀, before its completion (rule R131). -/
structure State.InKeygenOf (s₀ s : State) : Prop where
  wf : s.Wf
  op : s.fsm.op = Instr.keygen.op
  building : s.Building (keyBytes s₀.key s₀.keylen.toNat)
  build : s.build = s₀.build
  rounds : s.RL = s₀.cfg
  dout : s.dout = s₀.dout
  above : s.S.drop s.NL = s₀.S.drop s.NL

/-- The accesses of a busy cycle leave the run where it is. -/
theorem State.InKeygenOf.of_busyShape {s₀ s sb : State} (h : s₀.InKeygenOf s) (hshape : BusyShape s sb) (hw : sb.Wf) :
    s₀.InKeygenOf sb ∧ sb.keygenTicksLeft = s.keygenTicksLeft := by
  obtain ⟨-, hop, hbuilding, hbuild, hrounds, hdout, habove⟩ := h
  obtain ⟨st, e, c, k, d, key, rfl, -⟩ := hshape
  exact ⟨⟨hw, hop, hbuilding, hbuild, hrounds, hdout, habove⟩, rfl⟩

theorem State.InKeygenOf.withBus {s₀ s : State} (h : s₀.InKeygenOf s) (script : List Pins) (rdata : Word) :
    s₀.InKeygenOf { s with script := script, rdata := rdata } :=
  ⟨wf_script h.wf _ _, h.op, h.building, h.build, h.rounds, h.dout, h.above⟩

/-- A tick of phase 1 stays in the run and uses up one tick. -/
theorem State.InKeygenOf.tick_phase1 {s₀ s : State} (h : s₀.InKeygenOf s) (hf : s.fsm = .kgP1) :
    s₀.InKeygenOf (tick s s) ∧ (tick s s).keygenTicksLeft + 1 = s.keygenTicksLeft := by
  obtain ⟨hw, -, hbuilding, hbuild, hrounds, hdout, habove⟩ := h
  obtain ⟨hSI, -, hKN, -, -⟩ := hw.kgP1 hf
  have habove' : (s.S.set s.SI (rom s.SI)).drop s.NL = s₀.S.drop s.NL := (drop_set_below _ hSI).trans habove
  have hw' := wf_tick_kgP1 hw hf
  have hbuilding' := building_tick_kgP1 hw hf hbuilding
  simp only [keygenTicksLeft, hf]
  rw [tick_kgP1 hf] at hw' hbuilding' ⊢
  by_cases hlast : s.SI = s.NL - 1
  · simp only [if_pos hlast] at hw' hbuilding' ⊢
    exact ⟨⟨hw', rfl, hbuilding', hbuild, hrounds, hdout, habove'⟩, by omega⟩
  · simp only [if_neg hlast] at hw' hbuilding' ⊢
    exact ⟨⟨hw', rfl, hbuilding', hbuild, hrounds, hdout, habove'⟩, by omega⟩

/-- A tick of phase 2 stays in the run and uses up one tick. -/
theorem State.InKeygenOf.tick_phase2 {s₀ s : State} (h : s₀.InKeygenOf s) (hf : s.fsm = .kgP2) :
    s₀.InKeygenOf (tick s s) ∧ (tick s s).keygenTicksLeft + 1 = s.keygenTicksLeft := by
  obtain ⟨hw, -, hbuilding, hbuild, hrounds, hdout, habove⟩ := h
  obtain ⟨-, -, hKN⟩ := hw.kgP2 hf
  have hw' := wf_tick_kgP2 hw hf
  have hbuilding' := building_tick_kgP2 hw hf hbuilding
  simp only [keygenTicksLeft, hf]
  rw [tick_kgP2 hf] at hw' hbuilding' ⊢
  have habove' : (tickKgP2 s s).S.drop s.NL = s₀.S.drop s.NL := (drop_set_below _ (hw.SI_lt_NL (.inr hf))).trans habove
  by_cases hlast : s.KN = s.VL - 1
  · have hfsm : (tickKgP2 s s).fsm = .kgFin := if_pos hlast
    exact ⟨⟨hw', by rw [hfsm]; rfl, hbuilding', hbuild, hrounds, hdout, habove'⟩, by simp only [hfsm]; omega⟩
  · have hfsm : (tickKgP2 s s).fsm = .kgP2 := if_neg hlast
    have hticks : s.VL - (s.KN + 1) + 1 = s.VL - s.KN := by omega
    exact ⟨⟨hw', by rw [hfsm]; rfl, hbuilding', hbuild, hrounds, hdout, habove'⟩, by simp only [hfsm]; exact hticks⟩

/-- A tick before the completion tick stays in the run and uses up one tick. -/
theorem State.InKeygenOf.tick_next {s₀ s : State} (h : s₀.InKeygenOf s) (hleft : s.keygenTicksLeft ≠ 0) :
    s₀.InKeygenOf (tick s s) ∧ (tick s s).keygenTicksLeft + 1 = s.keygenTicksLeft := by
  obtain hf | hf | hf := (Fsm.op_eq_keygen_iff s.fsm).1 h.op
  · exact h.tick_phase1 hf
  · exact h.tick_phase2 hf
  · exact absurd (by simp only [keygenTicksLeft, hf]) hleft

/-- A cycle before the completion cycle, whatever the access in it, stays in the run and uses up one tick. -/
theorem State.InKeygenOf.step_next {s₀ s : State} (h : s₀.InKeygenOf s) (hleft : s.keygenTicksLeft ≠ 0)
    (hr : (nextPins s).rstN = true) :
    ∃ t, step s = .next t ∧ s₀.InKeygenOf t ∧ t.keygenTicksLeft + 1 = s.keygenTicksLeft := by
  obtain ⟨sb, hshape, hwb, hstep⟩ := step_of_busy h.wf (h.wf.busy_of_keygen h.op).1 hr
  obtain ⟨hb, hticks⟩ := h.of_busyShape hshape hwb
  obtain ⟨hnext, hticks'⟩ := hb.tick_next (by rwa [hticks])
  exact ⟨_, hstep, hnext.withBus _ _, hticks'.trans hticks⟩

/-- What a completed KEYGEN, accepted in the state s₀, leaves (rule R131). -/
structure State.KeygenDone (s₀ t : State) : Prop where
  table : t.S.take (roundKeyCount s₀.cfg.toNat) = keySchedule (keyBytes s₀.key s₀.keylen.toNat) s₀.cfg.toNat
  above : t.S.drop (roundKeyCount s₀.cfg.toNat) = s₀.S.drop (roundKeyCount s₀.cfg.toNat)
  scratch : t.L = List.replicate s₀.build.cMax 0 ∧ t.KA = 0 ∧ t.KB = 0
  cipher : t.status.keyValid = true ∧ t.status.schedR = s₀.cfg
  control : t.status.busy = false ∧ t.status.done = true ∧ t.status.activeOp = Instr.keygen.op ∧ t.fsm = .idle
  dout : t.dout = s₀.dout

theorem State.InKeygenOf.fsm_of_no_ticks_left {s₀ s : State} (h : s₀.InKeygenOf s) (hleft : s.keygenTicksLeft = 0) :
    s.fsm = .kgFin := by
  obtain hf | hf | hf := (Fsm.op_eq_keygen_iff s.fsm).1 h.op
  · have hSI := h.wf.SI_lt_NL (.inl hf)
    simp only [keygenTicksLeft, hf] at hleft
    omega
  · obtain ⟨-, -, hKN⟩ := h.wf.kgP2 hf
    simp only [keygenTicksLeft, hf] at hleft
    omega
  · exact hf

/-- The completion tick leaves what the whole KEYGEN has to leave. -/
theorem State.InKeygenOf.tick_last {s₀ s : State} (h : s₀.InKeygenOf s) (hf : s.fsm = .kgFin) :
    s₀.KeygenDone (tick s s) := by
  obtain ⟨hw, hop, hbuilding, hbuild, hrounds, hdout, habove⟩ := h
  obtain ⟨-, hactive⟩ := hw.busy_of_keygen hop
  obtain ⟨-, -, -, -, -, hNL, -⟩ := hw.keygen hop
  simp only [Building, hf] at hbuilding
  rw [hNL, hrounds] at hbuilding habove
  rw [tick_kgFin hf, tickKgFin]
  exact ⟨hbuilding, habove, ⟨by simp [hbuild], rfl, rfl⟩, ⟨rfl, hrounds⟩, ⟨rfl, rfl, hactive, rfl⟩, hdout⟩

/-- The completion cycle, whatever the access in it. -/
theorem State.InKeygenOf.step_last {s₀ s : State} (h : s₀.InKeygenOf s) (hleft : s.keygenTicksLeft = 0)
    (hr : (nextPins s).rstN = true) : ∃ t, step s = .next t ∧ s₀.KeygenDone t := by
  obtain ⟨sb, hshape, hwb, hstep⟩ := step_of_busy h.wf (h.wf.busy_of_keygen h.op).1 hr
  obtain ⟨hb, hticks⟩ := h.of_busyShape hshape hwb
  obtain ⟨htable, habove, hscratch, hcipher, hcontrol, hdout⟩ :=
    hb.tick_last (hb.fsm_of_no_ticks_left (hticks.trans hleft))
  exact ⟨_, hstep, htable, habove, hscratch, hcipher, hcontrol, hdout⟩

/-- The access of a command that the pins write to CMD. -/
theorem busEffects_of_commands {s : State} {i : Instr} {p : Pins} (h : commands s.build i p) :
    busEffects s p.access = exec i s := by
  obtain ⟨a, v, ha, hr, hd⟩ := h
  simp only [ha, busEffects, hr, commandWrite, hd]

/-- The cycle that accepts a KEYGEN begins its run: L holds the key words, and no entry of S is written yet. -/
theorem step_accepts_keygen {s : State} {p : Pins} {rest : List Pins} (hw : s.Wf) (hn : s.NoReset) (hs : s.script = p :: rest)
    (hp : commands s.build .keygen p) (hf : s.fsm = .idle) (hl : configLegal s = true) :
    ∃ t, step s = .next t ∧ s.InKeygenOf t := by
  have hb : s.status.busy = false := Bool.eq_false_iff.2 fun h => hw.busy.1 h hf
  have hr : p.rstN = true := hn p (by rw [hs]; exact List.mem_cons_self)
  have heff : busEffects s p.access = .next (acceptCommon Instr.keygen.op (endCipher (latchKeygen s))) := by
    rw [busEffects_of_commands hp, exec_keygen_of_idle hb, acceptKeygen_of_legal hl]
  have hfit : s.keylen.toNat ≤ 4 * s.key.length := by
    obtain ⟨-, -, hlen⟩ := (configLegal_iff s).1 hl
    rw [hw.keyLen, Build.cMax]
    omega
  have hpos : 1 ≤ s.key.length := by
    obtain ⟨hmin, -⟩ := Build.cMax_bounds hw.build
    rw [hw.keyLen]
    omega
  have hL : (loadL s.build.cMax s.key s.keylen.toNat).take (keyWordCount s.keylen.toNat) =
      bytesToWords (keyBytes s.key s.keylen.toNat) := by
    rw [← hw.keyLen]
    exact take_loadL hfit hpos
  have hrun : s.InKeygenOf (acceptCommon Instr.keygen.op (endCipher (latchKeygen s))) :=
    ⟨(busEffects_effect heff).wf hw, rfl, ⟨congrArg keyWordCount (keyBytes_length hfit).symm, hL, rfl⟩, rfl, rfl, rfl, rfl⟩
  exact ⟨_, step_cons hs hr heff, by rw [tick_idle _ hf]; exact hrun.withBus _ _⟩

/-- Settles O31: the acceptance begins the run of the KEYGEN, every cycle up to the completion keeps it, and the completion leaves what
it has computed. -/
theorem keygenComputesTheKeySchedule : Obligations.KeygenComputesTheKeySchedule := by
  intro s p rest hw hn hs hp hf h1 hmax hlen
  have hl : configLegal s = true := (configLegal_iff s).2 ⟨h1, hmax, hlen⟩
  obtain ⟨s₁, hacc, hrun⟩ := step_accepts_keygen hw hn hs hp hf hl
  obtain ⟨N, t, ht, hbusy, hdone⟩ := runCycles_of_command hn hacc hrun
    (fun u hu => hu.step_next) (fun u hu => hu.step_last)
  obtain ⟨htable, habove, ⟨hL, hKA, hKB⟩, ⟨hvalid, hsched⟩, ⟨hb, hd, ha, hi⟩, hdout⟩ := hdone
  refine ⟨N, t, ht, fun k hk hkN => ?_, htable, habove, hL, hKA, hKB, hvalid, hsched, hb, hd, ha, hi, hdout⟩
  obtain ⟨u, hu, hrun⟩ := hbusy k hk hkN
  obtain ⟨hvalid, -⟩ := hrun.wf.keygen hrun.op
  exact ⟨u, hu, (hrun.wf.busy_of_keygen hrun.op).1, hvalid, hrun.dout⟩

end Sys2Proof.Machine
end

section
/-! Proofs of the statements about the round function (spec/42_round_function.md), and the lemmas they need: the transforms are inverse
to each other, and the ticks of ENCRYPT and DECRYPT. -/

namespace Sys2Proof.Machine

/-! ### Encrypt and Decrypt are inverse (rule R164) -/

/-- One word of an encryption round (mask, rotation, round key k) is undone by its decryption. -/
theorem decWord_encWord (a t k : Word) (n : Nat) : ror (rol (a ^^^ t) n + k - k) n ^^^ t = a := by
  rw [BitVec.add_sub_cancel, ror_rol, BitVec.xor_assoc, BitVec.xor_self, BitVec.xor_zero]

/-- One word of a decryption round is undone by its encryption. -/
theorem encWord_decWord (a t k : Word) (n : Nat) : rol (ror (a - k) n ^^^ t ^^^ t) n + k = a := by
  rw [BitVec.xor_assoc, BitVec.xor_self, BitVec.xor_zero, rol_ror, BitVec.sub_add_cancel]

/-- The lanes of a round are of the two words it only moves, so the decryption round forms the same masks and amounts. -/
theorem decRound_encRound (S : List Word) (i : Nat) (x : Block) : decRound S i (encRound S i x) = x := by
  simp only [decRound, encRound, decWord_encWord]

theorem encRound_decRound (S : List Word) (i : Nat) (x : Block) : encRound S i (decRound S i x) = x := by
  simp only [decRound, encRound, encWord_decWord]

/-- The encryption loop with its last round split off: the round the decryption loop begins with. -/
theorem encLoop_succ (S : List Word) (i k : Nat) (x : Block) :
    encLoop S i (k + 1) x = encRound S (i + k) (encLoop S i k x) := by
  induction k generalizing i x with
  | zero => rfl
  | succ k ih => rw [encLoop, ih, encLoop, Nat.add_right_comm, Nat.add_assoc]

theorem decLoop_encLoop (S : List Word) (r : Nat) (x : Block) : decLoop S r (encLoop S 1 r x) = x := by
  induction r with
  | zero => rfl
  | succ r ih => rw [encLoop_succ, Nat.add_comm 1 r, decLoop, decRound_encRound, ih]

theorem encLoop_decLoop (S : List Word) (r : Nat) (x : Block) : encLoop S 1 r (decLoop S r x) = x := by
  induction r generalizing x with
  | zero => rfl
  | succ r ih => rw [encLoop_succ, Nat.add_comm 1 r, decLoop, ih, encRound_decRound]

theorem decPre_encPost (S : List Word) (r : Nat) (x : Block) : decPre S r (encPost S r x) = x := by
  simp only [decPre, encPost, BitVec.add_sub_cancel]

theorem encPost_decPre (S : List Word) (r : Nat) (x : Block) : encPost S r (decPre S r x) = x := by
  simp only [decPre, encPost, BitVec.sub_add_cancel]

theorem decPost_encPre (S : List Word) (x : Block) : decPost S (encPre S x) = x := by
  simp only [decPost, encPre, BitVec.add_sub_cancel]

theorem encPre_decPost (S : List Word) (x : Block) : encPre S (decPost S x) = x := by
  simp only [decPost, encPre, BitVec.sub_add_cancel]

/-- Settles O37: each of the three parts of a transform undoes its counterpart in the other, the loops by induction over the rounds. -/
theorem encryptAndDecryptAreInverse : Obligations.EncryptAndDecryptAreInverse := by
  refine fun S r x => ⟨?_, ?_⟩
  · rw [decryptBlock, encryptBlock, decPre_encPost, decLoop_encLoop, decPost_encPre]
  · rw [decryptBlock, encryptBlock, encPre_decPost, encLoop_decLoop, encPost_decPre]

/-! ### The ticks of ENCRYPT (rule R152 to rule R154) and of DECRYPT (rule R159 to rule R161) -/

/-- Rule R151, rule R165: a lane, its function and its amount written out. -/
theorem lane_eq (x : Word) : lane x = rol (x * (2 * x + 1)) 5 := rfl

theorem tick_enPre {s : State} (hf : s.fsm = .enPre) : tick s s = tickEnPre s s := by
  simp only [tick, hf]

theorem tick_enRnd {s : State} (hf : s.fsm = .enRnd) : tick s s = tickEnRnd s s := by
  simp only [tick, hf]

theorem tick_enFin {s : State} (hf : s.fsm = .enFin) : tick s s = tickEnFin s s := by
  simp only [tick, hf]

theorem tick_dePre {s : State} (hf : s.fsm = .dePre) : tick s s = tickDePre s s := by
  simp only [tick, hf]

theorem tick_deRnd {s : State} (hf : s.fsm = .deRnd) : tick s s = tickDeRnd s s := by
  simp only [tick, hf]

theorem tick_deFin {s : State} (hf : s.fsm = .deFin) : tick s s = tickDeFin s s := by
  simp only [tick, hf]

/-- Settles O28: the cycle is the tick alone, and each tick writes what its rule says. -/
theorem encryptTicks : Obligations.EncryptTicks := by
  refine fun s rest hs => ⟨fun hf => ?_, fun hf => ?_, fun hf => ?_⟩
  · rw [step_of_idle_access hs, tick_enPre hf]
    rfl
  · simp only [step_of_idle_access hs, tick_enRnd hf, tickEnRnd, rotAmount_eq_mod, lane_eq]
    rfl
  · rw [step_of_idle_access hs, tick_enFin hf]
    rfl

/-- Settles O29: the cycle is the tick alone, and each tick writes what its rule says. -/
theorem decryptTicks : Obligations.DecryptTicks := by
  refine fun s rest hs => ⟨fun hf => ?_, fun hf => ?_, fun hf => ?_⟩
  · rw [step_of_idle_access hs, tick_dePre hf]
    rfl
  · simp only [step_of_idle_access hs, tick_deRnd hf, tickDeRnd, rotAmount_eq_mod, lane_eq]
  · rw [step_of_idle_access hs, tick_deFin hf]
    rfl

end Sys2Proof.Machine
end

section
/-! Proofs of the statements about the register reads and writes and NOP (spec/43_control.md), and the lemmas they need. -/

namespace Sys2Proof

/-- The registers DOUT0 to DOUT3 take the addresses 0x0C to 0x0F. -/
theorem decodeAddr_of_dout_range (b : Build) {a : Addr} (hlo : 0x0C ≤ a.toNat) (hhi : a.toNat ≤ 0x0F) :
    ∃ q, decodeAddr b a = .dout q := by
  obtain ⟨q, hq⟩ : ∃ q : Fin 4, a = BitVec.ofNat 7 (0x0C + q.val) :=
    ⟨⟨a.toNat - 0x0C, by omega⟩, by rw [Nat.add_sub_cancel' hlo, BitVec.ofNat_toNat, BitVec.setWidth_eq]⟩
  exact ⟨q, hq ▸ decodeAddr_dout b q⟩

namespace Machine

/-! ### The access to a register -/

theorem busRead_of_decodeAddr {s : State} {a : Addr} {r : Reg} (h : decodeAddr s.build a = r) : busRead s a = readReg s r :=
  congrArg (readReg s) h

/-- Rule R180: a write to a register other than CMD, whose writes run the command procedure. -/
theorem busEffects_write_of_decodeAddr {s : State} {a : Addr} {r : Reg} (h : decodeAddr s.build a = r) (hr : r ≠ .cmd) (v : Word) :
    busEffects s (.write a v) = .next (writeReg s v r) := by
  cases r with
  | cmd => exact absurd rfl hr
  | _ => simp only [busEffects, h]

/-- Rule R182: a CMD write runs the command its word decodes to. -/
theorem commandWrite_of_decode {v : Word} {i : Instr} (h : decode v = .ok i) (s : State) : commandWrite v s = exec i s := by
  simp only [commandWrite, h]

/-! ### A read and the idle cycle (rule R181, rule R236) -/

/-- The tick does not read the script. -/
theorem tick_script (s t : State) (script : List Pins) : tick { s with script := script } t = tick s t := rfl

/-- A cycle with an access that changes no state is the tick, written onto the state of its start, and the value on the read bus. -/
theorem step_of_no_effect (s : State) {p : Pins} (rest : List Pins) (hr : p.rstN = true)
    (hb : ∀ u : State, busEffects u p.access = .next u) :
    step { s with script := p :: rest } = .next { tick s s with script := rest, rdata := cycleRdata s p } := by
  have htick : tick s { s with script := p :: rest } = { tick s s with script := p :: rest, rdata := s.rdata } :=
    tick_script_rdata s s (p :: rest) s.rdata
  rw [step_cons rfl hr (hb _), tick_script, htick]
  rfl

/-- Settles O7: each row by the decoder's lemma for its address; a read and an idle cycle are the same tick, and differ in the read bus. -/
theorem busReadReturnsTheRegister : Obligations.BusReadReturnsTheRegister := by
  intro s hbuild
  obtain ⟨hid, hparam, hcmd, hstatus, hirqEn, hcfg, hkeylen⟩ := decodeAddr_control s.build
  obtain ⟨-, hmax⟩ := Build.cMax_bounds hbuild
  have hdin (q : Fin 4) := busRead_of_decodeAddr (decodeAddr_din s.build q)
  have hdout (q : Fin 4) := busRead_of_decodeAddr (decodeAddr_dout s.build q)
  exact ⟨busRead_of_decodeAddr hid, busRead_of_decodeAddr hparam, busRead_of_decodeAddr hcmd, busRead_of_decodeAddr hstatus,
    busRead_of_decodeAddr hirqEn, busRead_of_decodeAddr hcfg, busRead_of_decodeAddr hkeylen,
    hdin 0, hdin 1, hdin 2, hdin 3, hdout 0, hdout 1, hdout 2, hdout 3,
    fun _ hk => busRead_of_decodeAddr (decodeAddr_key hmax hk),
    fun _ ha => busRead_of_decodeAddr (decodeAddr_reserved ha),
    fun _ rest => ⟨{ tick s s with script := rest },
      step_of_no_effect s rest rfl fun _ => rfl, step_of_no_effect s rest rfl fun _ => rfl⟩⟩

/-! ### Register writes (rule R187 to rule R190) -/

/-- The low n bits, zero-extended, are what a mask of n ones keeps. -/
theorem zeroExtend_low_eq_and_mask {m n : Nat} (v : BitVec (m + n)) :
    0#m ++ v.extractLsb' 0 n = v &&& (0#m ++ BitVec.allOnes n) := by
  apply BitVec.eq_of_getLsbD_eq
  intro i hi
  by_cases hlow : i < n <;> simp [BitVec.getLsbD_append, hlow]

theorem zeroExtend_low8 (v : Word) : 0#24 ++ low8 v = v &&& 0x000000FF#32 :=
  zeroExtend_low_eq_and_mask (m := 24) (n := 8) v

/-- Settles O15: both addresses are registers of their own, and the read of a stored byte is the mask of the word written. -/
theorem cfgAndKeylenStoreTheirLowByte : Obligations.CfgAndKeylenStoreTheirLowByte := by
  intro s v
  obtain ⟨-, -, -, -, -, hcfg, hkeylen⟩ := decodeAddr_control s.build
  exact ⟨busEffects_write_of_decodeAddr hcfg (by decide) v, busEffects_write_of_decodeAddr hkeylen (by decide) v,
    (busRead_of_decodeAddr (s := { s with cfg := low8 v }) hcfg).trans (zeroExtend_low8 v),
    (busRead_of_decodeAddr (s := { s with keylen := low8 v }) hkeylen).trans (zeroExtend_low8 v)⟩

/-- IRQ_EN as read is the mask of the word written. -/
theorem irqEn_word_ofWord (v : Word) : (IrqEn.ofWord v).word = v &&& 0x00000003#32 := by
  have hlow : BitVec.ofBool (v.getLsbD 1) ++ BitVec.ofBool (v.getLsbD 0) = v.extractLsb' 0 2 := by
    apply BitVec.eq_of_getLsbD_eq
    intro i hi
    obtain rfl | rfl : i = 0 ∨ i = 1 := by omega
    all_goals rw [BitVec.getLsbD_append]; simp
  calc (IrqEn.ofWord v).word
      = 0#30 ++ (BitVec.ofBool (v.getLsbD 1) ++ BitVec.ofBool (v.getLsbD 0)) := BitVec.append_assoc
    _ = v &&& 0x00000003#32 := by rw [hlow]; exact zeroExtend_low_eq_and_mask (m := 30) (n := 2) v

/-- Settles O16: the address is a register of its own, its read is the mask, and irq is a function of the state. -/
theorem irqEnStoresItsTwoBits : Obligations.IrqEnStoresItsTwoBits := by
  intro s v
  obtain ⟨-, -, -, -, hirqEn, -, -⟩ := decodeAddr_control s.build
  exact ⟨busEffects_write_of_decodeAddr hirqEn (by decide) v,
    (busRead_of_decodeAddr (s := { s with irqEn := IrqEn.ofWord v }) hirqEn).trans (irqEn_word_ofWord v), rfl⟩

/-- Settles O18: the address decodes to one of the four kinds of register that take no write. -/
theorem writesToReadOnlyAndReservedAreIgnored : Obligations.WritesToReadOnlyAndReservedAreIgnored := by
  intro s a v ha
  obtain ⟨hid, hparam, -⟩ := decodeAddr_control s.build
  obtain rfl | rfl | ⟨hlo, hhi⟩ | hreserved := ha
  · exact busEffects_write_of_decodeAddr hid (by decide) v
  · exact busEffects_write_of_decodeAddr hparam (by decide) v
  · obtain ⟨q, hq⟩ := decodeAddr_of_dout_range s.build hlo hhi
    exact busEffects_write_of_decodeAddr hq (by simp) v
  · exact busEffects_write_of_decodeAddr (decodeAddr_reserved hreserved) (by decide) v

/-- Rule R189, field by field. -/
theorem Status.w1c_eq (st : Status) (v : Word) :
    st.w1c v = { st with
      done := st.done && !v.getLsbD 1
      err := st.err && !v.getLsbD 2
      errCode := if v.getLsbD 2 then .none else st.errCode
      errOp := if v.getLsbD 2 then 0#4 else st.errOp } := by
  unfold Status.w1c
  cases v.getLsbD 1 <;> cases v.getLsbD 2 <;> simp

/-- Settles O19: the write is the W1C of STATUS, which `Status.w1c_eq` gives field by field. -/
theorem statusWriteClearsDoneAndErr : Obligations.StatusWriteClearsDoneAndErr := by
  intro s v
  obtain ⟨-, -, -, hstatus, -⟩ := decodeAddr_control s.build
  rw [busEffects_write_of_decodeAddr hstatus (by decide), writeReg, Status.w1c_eq]

/-! ### NOP (rule R183) -/

/-- Settles O20: a word with OP 0 decodes to NOP, whose meaning is the state itself. -/
theorem nopChangesNothing : Obligations.NopChangesNothing :=
  ⟨fun _ => rfl, fun s v hop => commandWrite_of_decode ((decode_eq_ok_iff v .nop).mpr hop) s⟩

end Machine
end Sys2Proof
end

section
/-! Proofs of the statements about the rejection of a command (spec/60_exceptions.md), and the lemmas they need. -/

namespace Sys2Proof

/-- Rule R82, rule R83: a word whose OP is neither NOP's nor reserved is a command other than NOP. -/
theorem exists_command_of_opField {v : Word} (hnop : opField v ≠ 0) (hres : ¬5 ≤ (opField v).toNat) :
    ∃ i : Instr, decode v = .ok i ∧ opField v = i.op ∧ i ≠ .nop := by
  obtain ⟨i, hop, hi⟩ | ⟨hge, -⟩ := decodeOp_cases (opField v)
  · exact ⟨i, decode_of_decodeOp_some hi, hop, by rintro rfl; exact hnop hop⟩
  · exact absurd hge hres

theorem decode_encode (i : Instr) : decode (encode i) = .ok i :=
  (decode_eq_ok_iff _ i).mpr (opField_encodeWith 0#28 i)

namespace Machine

/-! ### The outcomes of a command's checks (rule R182, rule R208) -/

/-- Rule R204: BUSY is the answer to every command but NOP while one runs. -/
theorem commandWrite_of_busy {v : Word} {i : Instr} {s : State} (hd : decode v = .ok i) (hi : i ≠ .nop)
    (hb : s.status.busy = true) : commandWrite v s = .next (reject .busy i.op s) := by
  rw [commandWrite_of_decode hd, exec_of_busy i hb, if_neg hi]

theorem needsKey_of_valid {s : State} (hk : s.status.keyValid = true) (op : BitVec 4) (f : State → State) :
    needsKey op f s = f s := if_pos hk

theorem needsKey_of_invalid {s : State} (hk : s.status.keyValid = false) (op : BitVec 4) (f : State → State) :
    needsKey op f s = reject .noKey op s := by
  simp [needsKey, hk]

theorem exec_encrypt_of_idle {s : State} (hb : s.status.busy = false) :
    exec .encrypt s = .next (needsKey Instr.encrypt.op acceptEncrypt s) :=
  congrArg Host.Outcome.next (unlessBusy_of_idle hb _ _)

theorem exec_decrypt_of_idle {s : State} (hb : s.status.busy = false) :
    exec .decrypt s = .next (needsKey Instr.decrypt.op acceptDecrypt s) :=
  congrArg Host.Outcome.next (unlessBusy_of_idle hb _ _)

theorem exec_clrkey_of_idle {s : State} (hb : s.status.busy = false) : exec .clrkey s = .next (acceptClrkey s) :=
  congrArg Host.Outcome.next (unlessBusy_of_idle hb _ _)

/-- Rule R184, rule R206: a command that no check stops takes the common acceptance effects, and no acceptance writes the error record. -/
theorem exec_of_accepted {i : Instr} {s : State} (hi : i ≠ .nop) (hb : s.status.busy = false)
    (hc : i = .keygen → configLegal s = true) (hk : i = .encrypt ∨ i = .decrypt → s.status.keyValid = true) :
    ∃ u, exec i s = .next (acceptCommon i.op u) ∧
      u.status.err = s.status.err ∧ u.status.errCode = s.status.errCode ∧ u.status.errOp = s.status.errOp := by
  cases i with
  | nop => exact absurd rfl hi
  | keygen => exact ⟨_, (exec_keygen_of_idle hb).trans (congrArg _ (acceptKeygen_of_legal (hc rfl))), rfl, rfl, rfl⟩
  | encrypt =>
    exact ⟨_, (exec_encrypt_of_idle hb).trans (congrArg _ (needsKey_of_valid (hk (.inl rfl)) _ _)), rfl, rfl, rfl⟩
  | decrypt =>
    exact ⟨_, (exec_decrypt_of_idle hb).trans (congrArg _ (needsKey_of_valid (hk (.inr rfl)) _ _)), rfl, rfl, rfl⟩
  | clrkey => exact ⟨_, exec_clrkey_of_idle hb, rfl, rfl, rfl⟩

/-- Settles O25: the branches are the checks in the order of rule R208, each with the lemma of its outcome. -/
theorem rejectionPriorityAndEffect : Obligations.RejectionPriorityAndEffect := by
  intro s v
  dsimp only
  split_ifs with hnop hres hbusy hconfig hkey
  · exact commandWrite_of_decode ((decode_eq_ok_iff v .nop).mpr hnop) s
  · exact commandWrite_of_reserved hres s
  · obtain ⟨i, hd, hop, hi⟩ := exists_command_of_opField hnop hres
    rw [commandWrite_of_busy hd hi hbusy, ← hop]
    rfl
  · obtain ⟨hop, hbad⟩ := hconfig
    have hillegal : ¬configLegal s = true := by rw [configLegal_iff]; omega
    rw [commandWrite_of_decode ((decode_eq_ok_iff v .keygen).mpr hop), exec_keygen_of_idle (Bool.eq_false_iff.mpr hbusy),
      acceptKeygen_of_illegal hillegal, hop]
    rfl
  · obtain ⟨hop | hop, hinvalid⟩ := hkey
    · rw [commandWrite_of_decode ((decode_eq_ok_iff v .encrypt).mpr hop), exec_encrypt_of_idle (Bool.eq_false_iff.mpr hbusy),
        needsKey_of_invalid hinvalid, hop]
      rfl
    · rw [commandWrite_of_decode ((decode_eq_ok_iff v .decrypt).mpr hop), exec_decrypt_of_idle (Bool.eq_false_iff.mpr hbusy),
        needsKey_of_invalid hinvalid, hop]
      rfl
  · obtain ⟨i, hd, hop, hi⟩ := exists_command_of_opField hnop hres
    have hlegal : i = .keygen → configLegal s = true := by
      rintro rfl
      have hgood := not_and.mp hconfig hop
      rw [configLegal_iff]
      omega
    have hvalid : i = .encrypt ∨ i = .decrypt → s.status.keyValid = true := by
      rintro (rfl | rfl)
      · exact Bool.eq_true_of_not_eq_false (not_and.mp hkey (.inl hop))
      · exact Bool.eq_true_of_not_eq_false (not_and.mp hkey (.inr hop))
    obtain ⟨u, hexec, herr, hcode, herrOp⟩ := exec_of_accepted hi (Bool.eq_false_iff.mpr hbusy) hlegal hvalid
    exact ⟨_, (commandWrite_of_decode hd s).trans hexec, rfl, rfl, hop.symm, herr, hcode, herrOp⟩

/-! ### A rejection while a command runs (rule R204, rule R241) -/

/-- No tick reads or writes the error record, so a rejection and the tick of its cycle commute. -/
theorem tick_reject (s t : State) (c : ErrCode) (op : BitVec 4) : tick s (reject c op t) = reject c op (tick s t) := by
  cases hf : s.fsm with
  | kgP1 => simp only [tick, hf, tickKgP1]; split <;> rfl
  | ckClr => simp only [tick, hf, tickCkClr]; split <;> rfl
  | idle => rw [tick_idle _ hf, tick_idle _ hf]
  | _ => simp only [tick, hf]; rfl

/-- A cycle whose access is rejected ends as the cycle without the access, but for the error record. -/
theorem step_of_rejected (s : State) {p : Pins} (rest : List Pins) {c : ErrCode} {op : BitVec 4} (hr : p.rstN = true)
    (hb : ∀ script, busEffects { s with script := script } p.access = .next (reject c op { s with script := script })) :
    step { s with script := p :: rest } = .next (reject c op { tick s s with script := rest, rdata := cycleRdata s p }) := by
  have htick : tick s { s with script := p :: rest } = { tick s s with script := p :: rest, rdata := s.rdata } :=
    tick_script_rdata s s (p :: rest) s.rdata
  rw [step_cons rfl hr (hb _), tick_script, tick_reject, htick]
  rfl

/-- Settles O26: the write is rejected with BUSY, and a rejection and the tick of its cycle commute. -/
theorem commandWhileBusyIsLost : Obligations.CommandWhileBusyIsLost := by
  refine ⟨rfl, fun s i rest hb hi => ⟨_, step_of_no_effect s rest rfl fun _ => rfl, ?_⟩⟩
  exact step_of_rejected s rest rfl fun script =>
    commandWrite_of_busy (s := { s with script := script }) (decode_encode i) hi hb

end Machine
end Sys2Proof
end

section
/-! Proof that every accepted command completes (spec/70_reset_and_hazards.md rule R243), whatever the command: the tick keeps the control
state well formed, and before the completion it uses up one of the ticks that the command has left. -/

namespace Sys2Proof.Machine

/-! ### The tick keeps the control state well formed (rule R38, rule R41) -/

theorem tick_ckClr {s : State} (hf : s.fsm = .ckClr) :
    tick s s = { s with
      S := s.S.set s.SI 0
      SI := if s.SI = 2 * s.build.rMax + 3 then s.SI else s.SI + 1
      fsm := if s.SI = 2 * s.build.rMax + 3 then .ckFin else .ckClr } := by
  simp only [tick, hf, tickCkClr]
  split
  · rfl
  · rw [← hf]

theorem tick_ckFin {s : State} (hf : s.fsm = .ckFin) : tick s s = tickCkFin s s := by
  simp only [tick, hf]

/-- A transform that goes on: the working registers are free, and the round index is bounded in the rounds alone. -/
theorem State.Wf.within_transform {s : State} (hw : s.Wf) {f : Fsm} (hop : f.op = Instr.encrypt.op ∨ f.op = Instr.decrypt.op)
    (hf : s.fsm.op = f.op) {ri : Nat} (hri : f = .enRnd ∨ f = .deRnd → 1 ≤ ri ∧ ri ≤ schedRounds s) (a b c d : Word) :
    ({ s with WA := a, WB := b, WC := c, WD := d, RI := ri, fsm := f } : State).Wf := by
  have hne {g : Fsm} (he : g.op ≠ Instr.encrypt.op) (hd : g.op ≠ Instr.decrypt.op) : f.op ≠ g.op := fun h =>
    hop.elim (h ▸ he) (h ▸ hd)
  have hidle : f ≠ .idle := fun h => hne (g := .idle) (by decide) (by decide) (by rw [h])
  have hidle' : s.fsm ≠ .idle := fun h => hne (g := .idle) (by decide) (by decide) (by rw [← hf, h])
  have hkeygen : f.op ≠ Instr.keygen.op := hne (g := .kgP1) (by decide) (by decide)
  have hclrkey : f.op ≠ Instr.clrkey.op := hne (g := .ckClr) (by decide) (by decide)
  exact { hw with
    busy := iff_of_true (hw.busy.2 hidle') hidle
    active := fun _ => (hw.active hidle').trans hf
    keygen := fun h => absurd h hkeygen
    kgP1 := fun h => absurd (congrArg Fsm.op h) hkeygen
    kgP2 := fun h => absurd (congrArg Fsm.op h) hkeygen
    encrypt := fun h => hw.encrypt (hf.trans h)
    enRnd := fun h => hri (.inl h)
    decrypt := fun h => hw.decrypt (hf.trans h)
    deRnd := fun h => hri (.inr h)
    clrkey := fun h => absurd h hclrkey
    ckClr := fun h => absurd (congrArg Fsm.op h) hclrkey }

/-- A completion leaves a well-formed state if the arrays have their lengths and STATUS is coherent. -/
theorem wf_complete {s : State} (hb : s.build.wellFormed = true) (hkey : s.key.length = s.build.cMax)
    (hS : s.S.length = s.build.sLen) (hL : s.L.length = s.build.cMax) (hst : s.status.Coherent s.build) : (complete s).Wf :=
  wf_mk_idle hb hkey hS hL rfl ⟨hst.noErr, hst.isErr, hst.noKey, hst.isKey, hst.active⟩ rfl

/-- The tick of KG_FIN keeps the control state well formed: the latched round count is a legal SCHED_R. -/
theorem wf_tick_kgFin {s : State} (hw : s.Wf) (hf : s.fsm = .kgFin) : (tick s s).Wf := by
  obtain ⟨-, h1, hmax, -⟩ := hw.keygen (by rw [hf]; rfl)
  rw [tick_kgFin hf]
  exact wf_complete hw.build hw.keyLen hw.sLen (List.length_replicate ..)
    ⟨hw.status.noErr, hw.status.isErr, nofun, fun _ => ⟨h1, hmax⟩, hw.status.active⟩

/-- The tick of EN_RND keeps the control state well formed: the round index goes up to SCHED_R. -/
theorem wf_tick_enRnd {s : State} (hw : s.Wf) (hf : s.fsm = .enRnd) : (tick s s).Wf := by
  obtain ⟨-, hmax⟩ := hw.enRnd hf
  rw [tick_enRnd hf]
  refine hw.within_transform (.inl (by split <;> rfl)) (by rw [hf]; split <;> rfl) (fun h => ?_) _ _ _ _
  split at h
  · simp at h
  · omega

/-- The tick of DE_RND keeps the control state well formed: the round index goes down to 1. -/
theorem wf_tick_deRnd {s : State} (hw : s.Wf) (hf : s.fsm = .deRnd) : (tick s s).Wf := by
  obtain ⟨hmin, hmax⟩ := hw.deRnd hf
  rw [tick_deRnd hf]
  refine hw.within_transform (.inr (by split <;> rfl)) (by rw [hf]; split <;> rfl) (fun h => ?_) _ _ _ _
  split at h
  · simp at h
  · omega

/-- The tick of CK_CLR keeps the control state well formed: the cursor stays in S. -/
theorem wf_tick_ckClr {s : State} (hw : s.Wf) (hf : s.fsm = .ckClr) : (tick s s).Wf := by
  have hidle : s.fsm ≠ .idle := by rw [hf]; decide
  have hvalid : s.status.keyValid = false := hw.clrkey (by rw [hf]; rfl)
  have hactive : s.status.activeOp = Instr.clrkey.op := by rw [hw.active hidle, hf]; rfl
  have hSI := hw.ckClr hf
  have hS : (s.S.set s.SI 0).length = s.build.sLen := by rw [List.length_set, hw.sLen]
  rw [tick_ckClr hf]
  split
  · exact wf_mk hw.build hw.keyLen hS hw.lLen (hw.busy.2 hidle) hw.status hactive (by simp [hvalid])
  · have hnext : s.SI + 1 < s.build.sLen := by
      rw [Build.sLen] at hSI ⊢
      omega
    exact wf_mk hw.build hw.keyLen hS hw.lLen (hw.busy.2 hidle) hw.status hactive (by simp [hvalid, hnext])

/-- The tick keeps the control state well formed, whatever the FSM state. -/
theorem State.Wf.tick_self {s : State} (hw : s.Wf) : (tick s s).Wf := by
  cases hf : s.fsm with
  | idle => rwa [tick_idle _ hf]
  | kgP1 => exact wf_tick_kgP1 hw hf
  | kgP2 => exact wf_tick_kgP2 hw hf
  | kgFin => exact wf_tick_kgFin hw hf
  | enPre =>
    obtain ⟨hr, -⟩ := hw.status.isKey (hw.encrypt (by rw [hf]; rfl))
    rw [tick_enPre hf]
    exact hw.within_transform (.inl rfl) (by rw [hf]; rfl) (fun _ => ⟨le_rfl, hr⟩) _ _ _ _
  | enRnd => exact wf_tick_enRnd hw hf
  | enFin =>
    rw [tick_enFin hf]
    exact wf_complete hw.build hw.keyLen hw.sLen hw.lLen hw.status
  | dePre =>
    obtain ⟨hr, -⟩ := hw.status.isKey (hw.decrypt (by rw [hf]; rfl))
    rw [tick_dePre hf]
    exact hw.within_transform (.inr rfl) (by rw [hf]; rfl) (fun _ => ⟨hr, le_rfl⟩) _ _ _ _
  | deRnd => exact wf_tick_deRnd hw hf
  | deFin =>
    rw [tick_deFin hf]
    exact wf_complete hw.build hw.keyLen hw.sLen hw.lLen hw.status
  | ckClr => exact wf_tick_ckClr hw hf
  | ckFin =>
    rw [tick_ckFin hf]
    exact wf_complete hw.build hw.keyLen hw.sLen (List.length_replicate ..) hw.status

/-! ### The completion tick (rule R191) -/

theorem tick_of_completes {s : State} (h : s.fsm.completes = true) (t : State) :
    (tick s t).status.busy = false ∧ (tick s t).status.done = true ∧ (tick s t).fsm = .idle := by
  cases hf : s.fsm with
  | kgFin | enFin | deFin | ckFin => simp only [tick, hf]; exact ⟨rfl, rfl, rfl⟩
  | _ => rw [hf] at h; exact absurd h (by decide)

/-! ### The ticks that a command has left (rule R242) -/

/-- The ticks of the running command still to come before its completion tick. -/
def State.ticksLeft (s : State) : Nat :=
  match s.fsm with
  | .kgP1 | .kgP2 => s.keygenTicksLeft
  | .enPre | .dePre => schedRounds s + 1
  | .enRnd => schedRounds s + 1 - s.RI
  | .deRnd => s.RI
  | .ckClr => s.build.sLen - s.SI
  | .idle | .kgFin | .enFin | .deFin | .ckFin => 0

/-- A running command with no ticks left stands before its completion tick: the cursors of the loops have not run out. -/
theorem State.Wf.completes_of_no_ticks_left {s : State} (hw : s.Wf) (hb : s.status.busy = true) (hleft : s.ticksLeft = 0) :
    s.fsm.completes = true := by
  cases hf : s.fsm with
  | kgFin | enFin | deFin | ckFin => rfl
  | idle => exact absurd hf (hw.busy.1 hb)
  | kgP1 =>
    have hSI := hw.SI_lt_NL (.inl hf)
    simp only [ticksLeft, keygenTicksLeft, hf] at hleft
    omega
  | kgP2 =>
    obtain ⟨-, -, hKN⟩ := hw.kgP2 hf
    simp only [ticksLeft, keygenTicksLeft, hf] at hleft
    omega
  | enPre | dePre =>
    simp only [ticksLeft, hf] at hleft
    omega
  | enRnd =>
    obtain ⟨-, hmax⟩ := hw.enRnd hf
    simp only [ticksLeft, hf] at hleft
    omega
  | deRnd =>
    obtain ⟨hmin, -⟩ := hw.deRnd hf
    simp only [ticksLeft, hf] at hleft
    omega
  | ckClr =>
    have hSI := hw.ckClr hf
    simp only [ticksLeft, hf] at hleft
    omega

/-- A tick before the completion tick uses up one tick. -/
theorem State.Wf.ticksLeft_tick {s : State} (hw : s.Wf) (hleft : s.ticksLeft ≠ 0) : (tick s s).ticksLeft + 1 = s.ticksLeft := by
  cases hf : s.fsm with
  | idle | kgFin | enFin | deFin | ckFin => exact absurd (by simp only [ticksLeft, hf]) hleft
  | kgP1 =>
    obtain ⟨hSI, -, hKN, -⟩ := hw.kgP1 hf
    rw [tick_kgP1 hf]
    by_cases hlast : s.SI = s.NL - 1
    · simp only [ticksLeft, keygenTicksLeft, hf, if_pos hlast]
      omega
    · simp only [ticksLeft, keygenTicksLeft, hf, if_neg hlast]
      omega
  | kgP2 =>
    obtain ⟨-, -, hKN⟩ := hw.kgP2 hf
    rw [tick_kgP2 hf, tickKgP2]
    by_cases hlast : s.KN = s.VL - 1
    · simp only [ticksLeft, keygenTicksLeft, hf, if_pos hlast]
      omega
    · simp only [ticksLeft, keygenTicksLeft, hf, if_neg hlast]
      omega
  | enPre =>
    rw [tick_enPre hf, tickEnPre]
    simp only [ticksLeft, hf]
    rfl
  | enRnd =>
    obtain ⟨-, hmax⟩ := hw.enRnd hf
    rw [schedRounds] at hmax
    rw [tick_enRnd hf, tickEnRnd, schedRounds]
    by_cases hlast : s.RI = s.status.schedR.toNat
    · simp only [ticksLeft, schedRounds, hf, if_pos hlast]
      omega
    · simp only [ticksLeft, schedRounds, hf, if_neg hlast]
      omega
  | dePre =>
    rw [tick_dePre hf, tickDePre]
    simp only [ticksLeft, hf]
  | deRnd =>
    obtain ⟨hmin, -⟩ := hw.deRnd hf
    rw [tick_deRnd hf, tickDeRnd]
    by_cases hlast : s.RI = 1
    · simp only [ticksLeft, hf, if_pos hlast]
      omega
    · simp only [ticksLeft, hf, if_neg hlast]
      omega
  | ckClr =>
    have hSI := hw.ckClr hf
    rw [Build.sLen] at hSI
    rw [tick_ckClr hf]
    by_cases hlast : s.SI = 2 * s.build.rMax + 3
    · simp only [ticksLeft, Build.sLen, hf, if_pos hlast]
      omega
    · simp only [ticksLeft, Build.sLen, hf, if_neg hlast]
      omega

/-- A tick before the completion tick leaves BUSY. -/
theorem busy_tick_of_ticksLeft {s : State} (hleft : s.ticksLeft ≠ 0) : (tick s s).status.busy = s.status.busy := by
  cases hf : s.fsm with
  | idle | kgFin | enFin | deFin | ckFin => exact absurd (by simp only [State.ticksLeft, hf]) hleft
  | kgP1 => rw [tick_kgP1 hf]
  | ckClr => rw [tick_ckClr hf]
  | _ => simp only [tick, hf]; rfl

/-! ### The cycles of a running command, whatever the host does in them short of a reset -/

/-- The access of a busy cycle leaves the ticks that the command has left. -/
theorem BusyShape.ticksLeft_eq {s sb : State} (h : BusyShape s sb) : sb.ticksLeft = s.ticksLeft := by
  obtain ⟨st, e, c, k, d, key, rfl, -, -, -, hr, -⟩ := h
  simp only [State.ticksLeft, State.keygenTicksLeft, schedRounds, hr]

/-- A cycle before the completion cycle leaves the engine busy and uses up one tick. -/
theorem State.Wf.step_of_ticksLeft {s : State} (hw : s.Wf) (hb : s.status.busy = true) (hleft : s.ticksLeft ≠ 0)
    (hr : (nextPins s).rstN = true) :
    ∃ t, step s = .next t ∧ (t.Wf ∧ t.status.busy = true) ∧ t.ticksLeft + 1 = s.ticksLeft := by
  obtain ⟨sb, hshape, hwb, hstep⟩ := step_of_busy hw hb hr
  have hticks := hshape.ticksLeft_eq
  have hleft' : sb.ticksLeft ≠ 0 := by rwa [hticks]
  have hbusy : sb.status.busy = true := by
    obtain ⟨st, e, c, k, d, key, rfl, -, hbusy, -⟩ := hshape
    exact hbusy
  exact ⟨_, hstep, ⟨wf_script hwb.tick_self _ _, (busy_tick_of_ticksLeft hleft').trans hbusy⟩,
    (hwb.ticksLeft_tick hleft').trans hticks⟩

/-- Rule R191: the completion cycle, whatever the access in it. -/
theorem step_of_completes {s : State} (h : s.fsm.completes = true) (hr : (nextPins s).rstN = true) :
    ∃ t, step s = .next t ∧ t.status.busy = false ∧ t.status.done = true ∧ t.fsm = .idle := by
  obtain ⟨sb, hsb⟩ := busEffects_isNext s (nextPins s).access
  exact ⟨_, step_of_effects hr hsb, tick_of_completes h sb⟩

/-- Settles O36: the number of cycles is the ticks that the command has left and the completion tick, neither of which the host's cycles
enter. -/
theorem acceptedCommandsComplete : Obligations.AcceptedCommandsComplete := by
  refine fun s hw hb => ⟨s.ticksLeft + 1, Nat.le_add_left .., fun script hn => ?_⟩
  have hrun := runCycles_of_measure (P := fun u => u.Wf ∧ u.status.busy = true) (μ := State.ticksLeft)
    (s := { s with script := script }) (fun u ⟨hu, hub⟩ => hu.step_of_ticksLeft hub) ⟨wf_script hw _ _, hb⟩ hn
  refine ⟨fun k hk => ?_, ?_⟩
  · obtain ⟨u, hu, ⟨-, hub⟩, -⟩ := hrun k (Nat.le_of_lt_succ hk)
    exact ⟨u, hu, hub⟩
  · obtain ⟨u, hu, ⟨huw, hub⟩, hnu, hμ⟩ := hrun s.ticksLeft le_rfl
    have hleft : u.ticksLeft = 0 := Nat.add_eq_right.mp hμ
    obtain ⟨t, ht, hbusy, hdone, -⟩ := step_of_completes (huw.completes_of_no_ticks_left hub hleft) hnu.rstN
    exact ⟨t, (runCycles_succ hu).trans ht, hbusy, hdone⟩

end Sys2Proof.Machine
end

section
/-! Proofs of the statements about reset, hazards and the interrupt (spec/70_reset_and_hazards.md), and the lemmas they need. -/

namespace Sys2Proof

/-- IRQ_EN stands at one address. -/
theorem eq_of_decodeAddr_irqEn {b : Build} {a : Addr} (h : decodeAddr b a = .irqEn) : a = 0x04 := by
  unfold decodeAddr at h
  split at h <;> try contradiction
  · next ha => exact BitVec.eq_of_toNat_eq ha
  · split at h <;> contradiction

namespace Machine

/-! ### The reset edge (rule R230 to rule R233) -/

/-- Settles O13: the cycle is the reset edge, which reads the build and the draws of the state and no pin. -/
theorem resetEdgeLoadsResetValues : Obligations.ResetEdgeLoadsResetValues := by
  intro s p rest hs hr
  have hstep : step s = .next (resetCycle s rest) := by
    rw [step_of_reset (by rwa [nextPins_of_cons hs]), hs, List.tail_cons]
  have hstatus : Status.reset.word = 0#32 := by decide
  have hirqEn : (IrqEn.mk false false).word = 0#32 := by decide
  exact ⟨_, hstep, hstatus, hirqEn, rfl, rfl, rfl, rfl, rfl, rfl, rfl, rfl, rfl, rfl, fun q hq => step_of_reset hq⟩

/-! ### A completion and a W1C of DONE (rule R237) -/

/-- DONE after a tick: a completion sets it, every other tick leaves it. -/
theorem tick_done_eq (s t : State) : (tick s t).status.done = (s.fsm.completes || t.status.done) := by
  cases hc : s.fsm.completes with
  | true => exact (tick_of_completes hc t).2.1
  | false =>
    have hne {f : Fsm} (hf : f.completes = true) : s.fsm ≠ f := by
      rintro rfl
      exact absurd (hf.symm.trans hc) (by decide)
    exact tick_done s t ⟨hne rfl, hne rfl, hne rfl, hne rfl⟩

/-- Settles O11: the completion tick writes DONE over the access; without one, DONE is what the W1C leaves. -/
theorem completionBeatsClearOfDone : Obligations.CompletionBeatsClearOfDone := by
  refine fun s p rest hs hr => ⟨fun hc => ?_, fun v hp hv hc => ?_⟩
  · obtain ⟨t, ht, hbusy, hdone, hidle⟩ := step_of_completes hc (by rwa [nextPins_of_cons hs])
    exact ⟨t, ht, hdone, hbusy, hidle⟩
  · refine ⟨_, step_cons hs hr (hp ▸ statusWriteClearsDoneAndErr s v), ?_⟩
    calc _ = (s.fsm.completes || (s.status.done && !v.getLsbD 1)) := tick_done_eq s _
      _ = false := by rw [hc, hv, Bool.not_true, Bool.and_false, Bool.or_false]

/-! ### The host and a running command (rule R240) -/

/-- The state s with the input registers, IRQ_EN, DONE, the error record and the model's own records of the state i. -/
def State.withInputs (s i : State) : State :=
  { s with
    status := { s.status with done := i.status.done, err := i.status.err, errCode := i.status.errCode, errOp := i.status.errOp }
    irqEn := i.irqEn, cfg := i.cfg, keylen := i.keylen, din := i.din, key := i.key
    script := i.script, rdata := i.rdata, draws := i.draws }

theorem State.SameCommand.eq_withInputs {s t : State} (h : s.SameCommand t) : t = s.withInputs t := by
  simp only [withInputs, h.build, h.busy, h.keyValid, h.schedR, h.activeOp, h.dout, h.S, h.L, h.WA, h.WB, h.WC, h.WD, h.KA, h.KB,
    h.SI, h.LJ, h.KN, h.RI, h.RL, h.CL, h.NL, h.VL, h.fsm]

/-- The tick reads nothing of what the inputs are, and writes none of it but DONE. -/
theorem sameCommand_tick_withInputs (s i : State) : (tick s s).SameCommand (tick (s.withInputs i) (s.withInputs i)) := by
  have hf' : (s.withInputs i).fsm = s.fsm := rfl
  cases hf : s.fsm with
  | idle => rw [tick_idle _ hf, tick_idle _ (hf'.trans hf)]; constructor <;> rfl
  | kgP1 => rw [tick_kgP1 hf, tick_kgP1 (hf'.trans hf)]; constructor <;> rfl
  | ckClr => rw [tick_ckClr hf, tick_ckClr (hf'.trans hf)]; constructor <;> rfl
  | _ => simp only [tick, hf'.trans hf, hf]; constructor <;> rfl

theorem State.SameCommand.tick_self {s t : State} (h : s.SameCommand t) : (tick s s).SameCommand (tick t t) := by
  rw [h.eq_withInputs]
  exact sameCommand_tick_withInputs s t

/-- The accesses of two busy cycles leave what the command uses. -/
theorem State.SameCommand.of_busyShape {s s' sb sb' : State} (h : s.SameCommand s')
    (hs : BusyShape s sb) (hs' : BusyShape s' sb') : sb.SameCommand sb' := by
  obtain ⟨st, e, c, k, d, key, rfl, -, hbusy, hvalid, hr, hop⟩ := hs
  obtain ⟨st', e', c', k', d', key', rfl, -, hbusy', hvalid', hr', hop'⟩ := hs'
  exact { h with
    busy := hbusy.trans hbusy'.symm
    keyValid := hvalid.trans (h.keyValid.trans hvalid'.symm)
    schedR := hr.trans (h.schedR.trans hr'.symm)
    activeOp := hop.trans (h.activeOp.trans hop'.symm) }

/-- Settles O51: the two accesses leave what the command uses, and of that alone the two ticks are made. -/
theorem hostAccessesDoNotAffectARunningCommand : Obligations.HostAccessesDoNotAffectARunningCommand := by
  intro s s' t t' hw hw' h hb hr hr' ht ht'
  obtain ⟨sb, hshape, -, hstep⟩ := step_of_busy hw hb hr
  obtain ⟨sb', hshape', -, hstep'⟩ := step_of_busy hw' (h.busy ▸ hb) hr'
  cases hstep.symm.trans ht
  cases hstep'.symm.trans ht'
  have hsame : (tick sb sb).SameCommand (tick sb' sb') := (h.of_busyShape hshape hshape').tick_self
  exact { hsame with }

/-! ### The interrupt (rule R245, rule R46) -/

/-- irq after a cycle: DONE as the access and the completion leave it, ERR as the access leaves it, each under its enable. -/
theorem step_irq {s sb : State} {p : Pins} {rest : List Pins} (hs : s.script = p :: rest) (hr : p.rstN = true)
    (hb : busEffects s p.access = .next sb) :
    ∃ t, step s = .next t ∧
      irq t = ((s.fsm.completes || sb.status.done) && sb.irqEn.doneIE || sb.status.err && sb.irqEn.errIE) := by
  obtain ⟨-, hirqEn, -, -, -, -, herr, -⟩ := tick_frame s sb
  refine ⟨_, step_cons hs hr hb, ?_⟩
  simp only [irq, tick_done_eq, hirqEn, herr]

/-- No command writes IRQ_EN. -/
theorem exec_irqEn {i : Instr} {s t : State} (h : exec i s = .next t) : t.irqEn = s.irqEn := by
  cases i with
  | nop => cases h; rfl
  | keygen => cases h; unfold unlessBusy acceptKeygen; split_ifs <;> rfl
  | encrypt | decrypt => cases h; unfold unlessBusy needsKey; split_ifs <;> rfl
  | clrkey => cases h; unfold unlessBusy; split_ifs <;> rfl

/-- A write to IRQ_EN is the one access that writes it. -/
theorem busEffects_irqEn {s t : State} {a : Access} (h : busEffects s a = .next t) (ha : ∀ v, a ≠ .write 0x04 v) :
    t.irqEn = s.irqEn := by
  cases a with
  | idle | read => cases h; rfl
  | write a v =>
    cases hr : decodeAddr s.build a with
    | cmd =>
      simp only [busEffects, hr, commandWrite] at h
      split at h
      · exact exec_irqEn h
      · cases h; rfl
    | irqEn => exact absurd (congrArg (Access.write · v) (eq_of_decodeAddr_irqEn hr)) (ha v)
    | _ => rw [busEffects_write_of_decodeAddr hr (by simp)] at h; cases h; rfl

/-- Rule R184: an access that raises BUSY clears DONE and leaves the error flag and IRQ_EN. -/
theorem BusEffect.of_accepted {s t : State} (h : BusEffect s t) (hb : s.status.busy = false) (ht : t.status.busy = true) :
    t.status.done = false ∧ t.status.err = s.status.err ∧ t.irqEn = s.irqEn := by
  cases h with
  | keygen | encrypt | decrypt | clrkey => exact ⟨rfl, rfl, rfl⟩
  | status v => rw [Status.w1c_eq] at ht; exact absurd (hb.symm.trans ht) (by decide)
  | _ => exact absurd (hb.symm.trans ht) (by decide)

/-- Settles O54: each clause is what its access leaves of DONE, ERR and IRQ_EN, put into `step_irq`. -/
theorem irqFollowsDoneAndErr : Obligations.IrqFollowsDoneAndErr := by
  intro s p rest hs hr
  obtain ⟨-, -, hcmd, -, hirqEn, -⟩ := decodeAddr_control s.build
  have hcommand (v : Word) : busEffects s (.write 0x02 v) = commandWrite v s := by simp only [busEffects, hcmd]
  refine ⟨fun hc hie ha => ?_, fun v sb hp hsb hie ⟨c, o, hrej⟩ => ?_, fun v hp hc hdone herr => ?_, fun v hp hc hdone herr => ?_,
    fun v sb hp hf hsb hbusy hb herr => ?_⟩
  · obtain ⟨sb, hsb⟩ := busEffects_isNext s p.access
    obtain ⟨t, ht, hirq⟩ := step_irq hs hr hsb
    exact ⟨t, ht, by simp [hirq, hc, busEffects_irqEn hsb ha, hie]⟩
  · subst hrej
    obtain ⟨t, ht, hirq⟩ := step_irq hs hr (hp ▸ (hcommand v).trans hsb)
    exact ⟨t, ht, by simp [hirq, hie]⟩
  · obtain ⟨t, ht, hirq⟩ := step_irq hs hr (hp ▸ statusWriteClearsDoneAndErr s v)
    refine ⟨t, ht, hirq.trans ?_⟩
    simp only [hc]
    grind
  · obtain ⟨t, ht, hirq⟩ := step_irq hs hr (hp ▸ busEffects_write_of_decodeAddr hirqEn (by decide) v)
    refine ⟨t, ht, hirq.trans ?_⟩
    simp only [hc, writeReg, IrqEn.ofWord]
    grind
  · obtain ⟨t, ht, hirq⟩ := step_irq hs hr (hp ▸ (hcommand v).trans hsb)
    obtain ⟨hdone, herr', hie⟩ := (commandWrite_effect hsb).of_accepted hb hbusy
    refine ⟨t, ht, hirq.trans ?_⟩
    simp only [hf, Fsm.completes, hdone, herr', hie]
    grind

end Machine
end Sys2Proof
end

section
/-! Proofs of the statements about the encodings (spec/30_encoding.md, spec/10_state.md section 2, spec/20_memory.md section 3), and the
lemmas they need. -/

namespace Sys2Proof

/-! ### The command word (rule R81, rule R82) -/

/-- A word is its ignored bits and its OP. -/
theorem ignored_append_opField (w : Word) : w.extractLsb' 4 28 ++ opField w = w := by
  calc w.extractLsb' 4 28 ++ w.extractLsb' 0 4
      = w.extractLsb' 0 (28 + 4) := BitVec.extractLsb'_append_extractLsb'_eq_extractLsb' rfl
    _ = w := BitVec.extractLsb'_eq_self

theorem Instr.wellFormed_eq_true (i : Instr) : i.wellFormed = true := by cases i <;> rfl

theorem decode_encodeWith (ignored : BitVec 28) (i : Instr) : decode (encodeWith ignored i) = .ok i :=
  (decode_eq_ok_iff _ i).mpr (opField_encodeWith ignored i)

/-- Settles O2: the decoder reads the opcode alone, which the encoder puts there, and the rest of a word is its ignored bits. -/
theorem commandDecodeAndEncodeAgree : Obligations.CommandDecodeAndEncodeAgree := by
  refine ⟨fun ignored i => ⟨i.wellFormed_eq_true, decode_encodeWith ignored i⟩, fun w i h => ?_⟩
  rw [encodeWith, ← (decode_eq_ok_iff w i).mp h, ignored_append_opField]

/-- Settles O5: each word by evaluation. -/
theorem writtenOutWordsDecode : Obligations.WrittenOutWordsDecode :=
  ⟨rfl, rfl, rfl, rfl, rfl, rfl, rfl, rfl, by decide, by decide⟩

/-! ### The transaction word (rule R80) -/

theorem decodeTransaction_write (a : Addr) (v : Word) : decodeTransaction (1#1 ++ a ++ v) = .ok (.write a v) := by
  obtain ⟨hwe, haddr, hdata⟩ := transaction_fields 1#1 a v
  rw [decodeTransaction, if_pos hwe, haddr, hdata]

theorem decodeTransaction_read (a : Addr) : decodeTransaction (0#1 ++ a ++ 0#32) = .ok (.read a) := by
  obtain ⟨hwe, haddr, hdata⟩ := transaction_fields 0#1 a 0#32
  rw [decodeTransaction, if_neg (by rw [hwe]; decide), if_pos hdata, haddr]

/-- Rule R80: well formed is the word of a write, and of a read whose DATA field is 0. -/
theorem transaction_wellFormed_iff (t : Transaction) :
    t.wellFormed = true ↔ t.extractLsb' 39 1 = 1#1 ∨ t.extractLsb' 0 32 = 0#32 := by
  rw [Transaction.wellFormed, Bool.or_eq_true, beq_iff_eq, beq_iff_eq]

theorem decodeTransaction_encodeTransaction {a : Access} {t : Transaction} (h : encodeTransaction a = some t) :
    decodeTransaction t = .ok a ∧ t.wellFormed = true := by
  cases a with
  | idle => cases h
  | read a =>
    cases h
    exact ⟨decodeTransaction_read a, (transaction_wellFormed_iff _).mpr (.inr (transaction_fields 0#1 a 0#32).2.2)⟩
  | write a v =>
    cases h
    exact ⟨decodeTransaction_write a v, (transaction_wellFormed_iff _).mpr (.inl (transaction_fields 1#1 a v).1)⟩

/-- A well-formed word, put together again from its fields, is the word of a write or of a read. -/
theorem encodeTransaction_of_wellFormed {t : Transaction} (h : t.wellFormed = true) : ∃ a, encodeTransaction a = some t := by
  have hsplit := transaction_split t
  by_cases hwe : t.extractLsb' 39 1 = 1#1
  · rw [hwe] at hsplit
    exact ⟨.write _ _, congrArg some hsplit.symm⟩
  · have hdata := ((transaction_wellFormed_iff t).mp h).resolve_left hwe
    rw [(BitVec.eq_zero_or_eq_one _).resolve_right hwe, hdata] at hsplit
    exact ⟨.read _, congrArg some hsplit.symm⟩

/-- Settles O4: the fields of a word are read back, a word is put together from its fields, and the refusal is the remaining case. -/
theorem transactionDecodeAndEncodeAgree : Obligations.TransactionDecodeAndEncodeAgree := by
  refine ⟨fun a t h => decodeTransaction_encodeTransaction h, fun t h => ?_, fun t h => ?_⟩
  · obtain ⟨a, ha⟩ := encodeTransaction_of_wellFormed h
    exact ⟨a, (decodeTransaction_encodeTransaction ha).1, ha⟩
  · have hnot := mt (transaction_wellFormed_iff t).mpr (Bool.eq_false_iff.mp h)
    obtain ⟨hwe, hdata⟩ := not_or.mp hnot
    rw [decodeTransaction, if_neg hwe, if_neg hdata]

/-! ### Register names (rule R21, rule R60, rule R90) -/

theorem addr_din (q : Fin 4) : (RegName.din q).addr = BitVec.ofNat 7 (0x08 + q.val) := by
  fin_cases q <;> rfl

theorem addr_dout (q : Fin 4) : (RegName.dout q).addr = BitVec.ofNat 7 (0x0C + q.val) := by
  fin_cases q <;> rfl

theorem addr_key (k : Nat) : (RegName.key k).addr = BitVec.ofNat 7 (0x40 + k) := by
  have hword : (0x100 + 4 * k) / 4 = 0x40 + k := by omega
  rw [RegName.addr, RegName.byteOffset, hword]

theorem decodeAddr_addr_key {b : Build} (hb : b.wellFormed = true) {k : Nat} (hk : k < b.cMax) :
    decodeAddr b (RegName.key k).addr = .key k := by
  rw [addr_key]
  exact decodeAddr_key (Build.cMax_bounds hb).2 hk

/-- The transaction words of the two accesses to an address: the address in bits 38:32, and WE in bit 39 (rule R80). -/
theorem encodeTransaction_eq_byte_append (n : Nat) (v : Word) (hn : n < 128) :
    encodeTransaction (.read (BitVec.ofNat 7 n)) = some (BitVec.ofNat 8 n ++ 0#32) ∧
    encodeTransaction (.write (BitVec.ofNat 7 n) v) = some ((0x80#8 + BitVec.ofNat 8 n) ++ v) := by
  have hread : ∀ m : Fin 128, 0#1 ++ BitVec.ofNat 7 m.val = BitVec.ofNat 8 m.val := by decide
  have hwrite : ∀ m : Fin 128, 1#1 ++ BitVec.ofNat 7 m.val = 0x80#8 + BitVec.ofNat 8 m.val := by decide
  rw [encodeTransaction, encodeTransaction, hread ⟨n, hn⟩, hwrite ⟨n, hn⟩]
  exact ⟨rfl, rfl⟩

/-- The registers of one address each, with the address byte of their transaction words (rule R90). -/
def namedRegisters : List (RegName × BitVec 8) :=
  [(.id, 0x00), (.param, 0x01), (.cmd, 0x02), (.status, 0x03), (.irqEn, 0x04), (.cfg, 0x05), (.keylen, 0x06),
    (.din 0, 0x08), (.din 1, 0x09), (.din 2, 0x0A), (.din 3, 0x0B), (.dout 0, 0x0C), (.dout 1, 0x0D), (.dout 2, 0x0E), (.dout 3, 0x0F)]

theorem namedRegisters_addr : ∀ x ∈ namedRegisters, x.1.addr = BitVec.ofNat 7 x.2.toNat ∧ x.2.toNat < 128 := by decide

/-- Settles O56: each name's address is one the decoder's lemmas speak of, and the words are `encodeTransaction_eq_byte_append`. -/
theorem registerNamesReachTheirRegisters : Obligations.RegisterNamesReachTheirRegisters := by
  refine ⟨fun b hb => ?_, fun r v => ?_, fun a r v h => ?_⟩
  · obtain ⟨hid, hparam, hcmd, hstatus, hirqEn, hcfg, hkeylen⟩ := decodeAddr_control b
    refine ⟨hid, hparam, hcmd, hstatus, hirqEn, hcfg, hkeylen, fun q => ⟨?_, ?_⟩, fun k hk => ?_, fun o ho => ?_⟩
    · rw [addr_din, decodeAddr_din]
    · rw [addr_dout, decodeAddr_dout]
    · exact decodeAddr_addr_key hb (of_decide_eq_true hk)
    · simp only [RegName.wellFormed, Bool.and_eq_true, decide_eq_true_eq] at ho
      rw [RegName.addr, RegName.byteOffset, BitVec.toNat_ofNat]
      omega
  · exact ⟨_, _, rfl, rfl, rfl, rfl, rfl, rfl⟩
  · have hword {n : Nat} (hn : n < 128) (hr : r.addr = BitVec.ofNat 7 n) (ha : a = BitVec.ofNat 8 n) :
        encodeTransaction (.read r.addr) = some (a ++ 0#32) ∧ encodeTransaction (.write r.addr v) = some ((0x80#8 + a) ++ v) := by
      rw [hr, ha]
      exact encodeTransaction_eq_byte_append n v hn
    obtain hnamed | ⟨k, hk, rfl, ha⟩ := h
    · obtain ⟨haddr, hlt⟩ := namedRegisters_addr (r, a) hnamed
      exact hword hlt haddr (BitVec.ofNat_toNat 8 a ▸ (BitVec.setWidth_eq a).symm)
    · exact hword (by omega) (addr_key k) ha

namespace Machine

/-! ### The fields of STATUS (rule R25) -/

/-- The fields of a concatenation laid out as STATUS is, each found by skipping the fields below it. -/
theorem fields_of_append (z : BitVec 8) (e o : BitVec 4) (r : BitVec 8) (z' : BitVec 1) (c : BitVec 3) (k x d b : Bool) :
    let w := z ++ e ++ o ++ r ++ z' ++ c ++ BitVec.ofBool k ++ BitVec.ofBool x ++ BitVec.ofBool d ++ BitVec.ofBool b
    w.getLsbD 0 = b ∧ w.getLsbD 1 = d ∧ w.getLsbD 2 = x ∧ w.getLsbD 3 = k ∧ w.extractLsb' 4 3 = c ∧
      w.getLsbD 7 = z'.getLsbD 0 ∧ w.extractLsb' 8 8 = r ∧ w.extractLsb' 16 4 = o ∧ w.extractLsb' 20 4 = e ∧
      w.extractLsb' 24 8 = z := by
  have hbit {v u : Nat} (hi : BitVec v) (lo : BitVec u) {n : Nat} (h : u ≤ n) :
      (hi ++ lo).getLsbD n = hi.getLsbD (n - u) := by rw [BitVec.getLsbD_append, if_neg (Nat.not_lt.mpr h)]
  have hlow {v u : Nat} (hi : BitVec v) (lo : BitVec (u + 1)) : (hi ++ lo).getLsbD 0 = lo.getLsbD 0 := by
    rw [BitVec.getLsbD_append, if_pos (Nat.succ_pos u)]
  have hofBool (y : Bool) : (BitVec.ofBool y).getLsbD 0 = y := by cases y <;> rfl
  dsimp only
  refine ⟨?_, ?_, ?_, ?_, ?_, ?_, ?_, ?_, ?_, ?_⟩ <;>
    simp (disch := decide) only [hbit, hlow, hofBool, BitVec.extractLsb'_append_eq_of_le, BitVec.extractLsb'_append_eq_right,
      BitVec.extractLsb'_eq_self, Nat.reduceSub]

/-- Settles O8: the layout of STATUS is the concatenation of `fields_of_append`. -/
theorem statusFieldsStandAtTheirBits : Obligations.StatusFieldsStandAtTheirBits :=
  ⟨⟨rfl, rfl, rfl, rfl, rfl, rfl⟩, fun st =>
    fields_of_append 0#8 st.errOp st.activeOp st.schedR 0#1 st.errCode.code st.keyValid st.err st.done st.busy⟩

/-! ### Words and bytes (rule R66) -/

/-- A concatenation is the sum of its parts, the upper one shifted. -/
theorem toNat_append_byte {w : Nat} (hi : BitVec w) (lo : Byte) : (hi ++ lo).toNat = 2 ^ 8 * hi.toNat + lo.toNat := by
  rw [BitVec.toNat_append, ← Nat.shiftLeft_add_eq_or_of_lt lo.isLt, Nat.shiftLeft_eq, Nat.mul_comm]

theorem leWord_eq_sum (b0 b1 b2 b3 : Byte) :
    leWord b0 b1 b2 b3
      = b0.setWidth 32 + 2 ^ 8 * b1.setWidth 32 + 2 ^ 16 * b2.setWidth 32 + 2 ^ 24 * b3.setWidth 32 := by
  apply BitVec.eq_of_toNat_eq
  have h0 := b0.isLt
  have h1 := b1.isLt
  have h2 := b2.isLt
  have h3 := b3.isLt
  rw [leWord, toNat_append_byte, toNat_append_byte, toNat_append_byte]
  have hp : (2 ^ 8 : Word) = 256#32 ∧ (2 ^ 16 : Word) = 65536#32 ∧ (2 ^ 24 : Word) = 16777216#32 := by decide
  obtain ⟨h8, h16, h24⟩ := hp
  simp only [h8, h16, h24, BitVec.toNat_add, BitVec.toNat_mul, BitVec.toNat_setWidth, BitVec.toNat_ofNat]
  omega

/-- Settles O41: the word as a sum by its value, and its bytes by `wordBytes_leWord`. -/
theorem wordsAreLittleEndian : Obligations.WordsAreLittleEndian :=
  fun b0 b1 b2 b3 => ⟨leWord_eq_sum b0 b1 b2 b3, wordBytes_leWord b0 b1 b2 b3⟩

end Machine
end Sys2Proof
end

section
/-! Proofs of the statements about one clock cycle and one command write (spec/70_reset_and_hazards.md section 2, spec/43_control.md), and
the lemmas they need. -/

namespace Sys2Proof

theorem Block.get_set (x : Block) (q q' : Fin 4) (v : Word) : (x.set q v).get q' = if q' = q then v else x.get q' := by
  fin_cases q <;> fin_cases q' <;> rfl

namespace Machine

/-! ### The cycle of a command write (rule R182, rule R236) -/

theorem cycleRdata_of_write (s : State) {p : Pins} {a : Addr} {v : Word} (h : p.access = .write a v) : cycleRdata s p = 0 := by
  rw [cycleRdata, h]
  cases p.rstN <;> rfl

/-- The cycle in which the pins write a command to CMD is exec of the command with the tick written onto it. -/
theorem step_of_command {s : State} {i : Instr} {p : Pins} {rest : List Pins} (hs : s.script = p :: rest) (hr : p.rstN = true)
    (hp : commands s.build i p) :
    ∃ sb, exec i s = .next sb ∧ step s = .next { tick s sb with script := rest, rdata := 0 } := by
  obtain ⟨sb, hsb⟩ := exec_isNext i s
  have hstep := step_cons hs hr ((busEffects_of_commands hp).trans hsb)
  obtain ⟨a, v, ha, -⟩ := hp
  exact ⟨sb, hsb, by rw [hstep, cycleRdata_of_write s ha]⟩

theorem decode_of_decodeTableWord {nbits w : Nat} {i : Instr} (h : decodeTableWord nbits w = some i) :
    decode (BitVec.ofNat 32 (w % 2 ^ nbits)) = .ok i := by
  unfold decodeTableWord at h
  split at h
  · next hd => cases h; exact hd
  · cases h

/-- Settles O9: both cycles write a command to the address of CMD. -/
theorem stepRunsTheDecodedCommand : Obligations.StepRunsTheDecodedCommand :=
  ⟨fun _ v _ _ hs hd => step_of_command hs rfl ⟨0x02, v, rfl, rfl, hd⟩,
    fun _ _ _ _ h => step_of_command rfl rfl ⟨RegName.cmd.addr, _, rfl, rfl, decode_of_decodeTableWord h⟩⟩

/-! ### The access and the tick of a cycle (rule R236, rule R193) -/

theorem State.SameCommand.refl (s : State) : s.SameCommand s := by constructor <;> rfl

theorem BusyShape.refl {s : State} (hb : s.status.busy = true) : BusyShape s s := BusEffect.nothing.of_busy hb

/-- Settles O10: in IDLE there is no tick; while the engine is busy the access leaves what the tick reads, and the tick leaves what the
access wrote. -/
theorem busEffectsAndTickAreDisjoint : Obligations.BusEffectsAndTickAreDisjoint := by
  intro s sb p rest hw hs hr hb
  refine ⟨_, _, step_cons hs hr hb, step_of_no_effect s rest rfl fun _ => rfl, fun hf => ?_, fun hf => ?_⟩
  · rw [tick_idle sb hf]
  · have hbusy : s.status.busy = true := hw.busy.2 hf
    have hshape : BusyShape s sb := (busEffects_effect hb).of_busy hbusy
    have hsame : (tick s sb).SameCommand (tick s s) := by
      rw [tick_of_busyShape hshape]
      exact ((State.SameCommand.refl s).of_busyShape hshape (.refl hbusy)).tick_self
    obtain ⟨-, hirqEn, hcfg, hkeylen, hdin, hkey, herr, hcode, herrOp, -⟩ := tick_frame s sb
    exact ⟨{ hsame with }, hdin, hkey, hcfg, hkeylen, hirqEn, herr, hcode, herrOp⟩

/-- Settles O12: without a write the access changes no state, and in IDLE there is no tick. -/
theorem idleEngineChangesNothing : Obligations.IdleEngineChangesNothing := by
  intro s p rest hs hr hf hnowrite
  have hb : busEffects s p.access = .next s := by
    cases ha : p.access with
    | idle | read => rfl
    | write a v => exact absurd ha (hnowrite a v)
  exact ⟨_, by rw [step_cons hs hr hb, tick_idle s hf]⟩

/-! ### The writes of DIN and KEY (rule R185, rule R186) -/

/-- Settles O17: the address decodes to the register, whose write replaces one word of DIN or of KEY. -/
theorem dinAndKeyStoreTheWholeWord : Obligations.DinAndKeyStoreTheWholeWord := by
  refine ⟨fun s q v => ?_, fun s k v hw hk => ?_⟩
  · have hreg := decodeAddr_din s.build q
    have hself : (s.din.set q v).get q = v := (Block.get_set _ q q v).trans (if_pos rfl)
    refine ⟨_, busEffects_write_of_decodeAddr hreg (by simp) v, rfl, hself,
      fun q' hq' => (Block.get_set _ q q' v).trans (if_neg hq'), ?_⟩
    exact (busRead_of_decodeAddr (s := { s with din := s.din.set q v }) hreg).trans hself
  · have hreg := decodeAddr_key (Build.cMax_bounds hw.build).2 hk
    have hlen : k < s.key.length := by rwa [hw.keyLen]
    exact ⟨_, busEffects_write_of_decodeAddr hreg (by simp) v, rfl, List.getElem?_set_self hlen,
      fun k' hk' => List.getElem?_set_ne hk'.symm, busRead_of_decodeAddr hreg⟩

/-! ### The acceptance of ENCRYPT, DECRYPT and CLRKEY (rule R150, rule R157, rule R136) -/

/-- Settles O22: with BUSY = 0 the key alone decides between the latching and the NOKEY rejection. -/
theorem encryptIsAcceptedAndLatchesTheBlock : Obligations.EncryptIsAcceptedAndLatchesTheBlock := by
  refine ⟨rfl, fun s hb => ⟨fun hk => ?_, fun hk => ?_⟩⟩
  · rw [exec_encrypt_of_idle hb, needsKey_of_valid hk]
    rfl
  · rw [exec_encrypt_of_idle hb, needsKey_of_invalid hk]
    rfl

/-- Settles O23: with BUSY = 0 the key alone decides between the latching and the NOKEY rejection. -/
theorem decryptIsAcceptedAndLatchesTheBlock : Obligations.DecryptIsAcceptedAndLatchesTheBlock := by
  refine ⟨rfl, fun s hb => ⟨fun hk => ?_, fun hk => ?_⟩⟩
  · rw [exec_decrypt_of_idle hb, needsKey_of_valid hk]
    rfl
  · rw [exec_decrypt_of_idle hb, needsKey_of_invalid hk]
    rfl

/-- Settles O24: with BUSY = 0 no other check stands before the acceptance. -/
theorem clrkeyIsAcceptedAndZeroesKey : Obligations.ClrkeyIsAcceptedAndZeroesKey :=
  fun _ hb => exec_clrkey_of_idle hb

/-! ### The ticks of CLRKEY (rule R137, rule R138) -/

/-- Settles O30: the cycle is the tick alone, and each tick writes what its rule says. -/
theorem clrkeyTicks : Obligations.ClrkeyTicks := by
  refine fun s rest hs => ⟨fun hf => ?_, fun hf => ?_⟩
  · rw [step_of_idle_access hs, tick_ckClr hf]
    rfl
  · rw [step_of_idle_access hs, tick_ckFin hf]
    rfl

/-! ### The state after reset (rule R44) -/

/-- Settles O14: each value by evaluation. -/
theorem resetStateHoldsTheStatedValues : Obligations.ResetStateHoldsTheStatedValues := by
  refine ⟨?_, ?_, ?_, ?_, ?_, ?_, rfl, rfl, rfl, rfl, rfl⟩ <;> decide

/-- After reset there is no key, so the cipher-table invariant asks nothing. -/
theorem tableInv_afterReset (b : Build) (u : Unspecified) (script : List Pins) (n : Nat) :
    (State.afterReset b u script n).TableInv :=
  ⟨nofun, nofun⟩

/-- Settles O45: the state after reset meets both invariants for any unspecified values of the right lengths. -/
theorem resetStateMeetsTheInvariants : Obligations.ResetStateMeetsTheInvariants :=
  ⟨wf_afterReset (by decide) _ List.length_replicate List.length_replicate _ _, tableInv_afterReset _ _ _ _⟩

/-! ### What writes KEY_VALID and DOUT (rule R40, rule R30) -/

/-- No access sets KEY_VALID. -/
theorem BusEffect.keyValid_false {s t : State} (h : BusEffect s t) (hv : s.status.keyValid = false) :
    t.status.keyValid = false := by
  cases h with
  | keygen | clrkey => rfl
  | status v => rw [Status.w1c_eq]; exact hv
  | _ => exact hv

/-- Settles O49: a reset and an access leave KEY_VALID at 0, and of the ticks KG_FIN's alone sets it. -/
theorem keyValidIsSetOnlyByKeygenCompletion : Obligations.KeyValidIsSetOnlyByKeygenCompletion := by
  intro s t h hv
  obtain ⟨hr, rfl⟩ | ⟨hr, sb, -, heff, rfl⟩ := step_cases h
  · exact iff_of_false nofun fun ⟨_, hr'⟩ => absurd (hr.symm.trans hr') nofun
  · have hkv : (commit s sb).status.keyValid = if s.fsm = .kgFin then true else false :=
      (tick_keyValid s sb).trans (by rw [heff.keyValid_false hv])
    rw [hkv]
    simp [hr]

/-- No access writes DOUT. -/
theorem BusEffect.dout_eq {s t : State} (h : BusEffect s t) : t.dout = s.dout := by
  cases h <;> rfl

/-- Settles O50: an access leaves DOUT, and so does every tick but the completions of ENCRYPT and DECRYPT. -/
theorem outputChangesOnlyAtCompletion : Obligations.OutputChangesOnlyAtCompletion := by
  intro s t h
  obtain ⟨hr, rfl⟩ | ⟨hr, sb, -, heff, rfl⟩ := step_cases h
  · exact .inr (.inl ⟨hr, rfl⟩)
  · by_cases hfin : s.fsm = .enFin ∨ s.fsm = .deFin
    · have hc : s.fsm.completes = true := by obtain hf | hf := hfin <;> rw [hf] <;> rfl
      obtain ⟨hbusy, hdone, -⟩ := tick_of_completes hc sb
      exact .inr (.inr ⟨hr, hfin, hbusy, hdone⟩)
    · obtain ⟨he, hd⟩ := not_or.mp hfin
      exact .inl ((tick_dout sb he hd).trans heff.dout_eq)

end Machine
end Sys2Proof
end

section
/-! Proofs of the statements about the pure key schedule and the pure transforms (spec/41_key_schedule.md section 1,
spec/42_round_function.md section 3), and the lemmas they need. -/

namespace Sys2Proof.Machine

/-! ### The masked load (rule R123) -/

theorem byteOf_and (x y : Word) (m : Nat) : byteOf (x &&& y) m = byteOf x m &&& byteOf y m := BitVec.extractLsb'_and

theorem byteOf_keyMask (j b : Nat) {m : Nat} (hm : m < 4) : byteOf (keyMask j b) m = maskByte (4 * j + m) b := by
  have hbytes := wordBytes_leWord (maskByte (4 * j) b) (maskByte (4 * j + 1) b) (maskByte (4 * j + 2) b) (maskByte (4 * j + 3) b)
  simp only [wordBytes, List.cons.injEq] at hbytes
  obtain ⟨h0, h1, h2, h3, -⟩ := hbytes
  match m, hm with
  | 0, _ => exact h0
  | 1, _ => exact h1
  | 2, _ => exact h2
  | 3, _ => exact h3

/-- Settles O43: a byte of the load is a byte of KEY under its byte of the mask, and the words are `take_loadL`. -/
theorem maskedLoadIsTheWordPacking : Obligations.MaskedLoadIsTheWordPacking := by
  refine fun key b => ⟨fun j m hj hm => ?_, take_loadL⟩
  rw [wordAt_loadL hj, byteOf_and, byteOf_keyMask j b hm]
  exact and_maskByte _ _ _

/-! ### The key schedule (rule R127, rule R134) -/

theorem keySchedule_length (K : List Byte) (r : Nat) : (keySchedule K r).length = roundKeyCount r := by
  have hpos := roundKeyCount_pos r
  calc (keySchedule K r).length = (expand (roundKeyCount r)).length := (mixLoop_length _ _ _ _).1
    _ = roundKeyCount r := expand_length (by omega)

/-- The key schedule reads the words of the key alone. -/
theorem keySchedule_congr {K K' : List Byte} (h : bytesToWords K = bytesToWords K') (r : Nat) :
    keySchedule K r = keySchedule K' r := by
  have hcount : keyWordCount K.length = keyWordCount K'.length := by
    rw [← bytesToWords_length, h, bytesToWords_length]
  simp only [keySchedule, h, hcount]

/-- Settles O44: the loop keeps the length of the table of phase 1, and up to four zero bytes pack into the one zero word of the empty key. -/
theorem keyScheduleShape : Obligations.KeyScheduleShape := by
  refine ⟨keySchedule_length, fun r k hk => keySchedule_congr ?_ r⟩
  interval_cases k <;> rfl

/-! ### What the transforms read of S (rule R167, rule R168) -/

section
variable {S S' : List Word} {r : Nat}

theorem encRound_congr (h : S.take (2 * r + 4) = S'.take (2 * r + 4)) {i : Nat} (hi : i ≤ r) (x : Block) :
    encRound S i x = encRound S' i x := by
  simp only [encRound, wordAt_congr_take h (show 2 * i < 2 * r + 4 by omega), wordAt_congr_take h (show 2 * i + 1 < 2 * r + 4 by omega)]

theorem decRound_congr (h : S.take (2 * r + 4) = S'.take (2 * r + 4)) {i : Nat} (hi : i ≤ r) (x : Block) :
    decRound S i x = decRound S' i x := by
  simp only [decRound, wordAt_congr_take h (show 2 * i < 2 * r + 4 by omega), wordAt_congr_take h (show 2 * i + 1 < 2 * r + 4 by omega)]

theorem encLoop_congr (h : S.take (2 * r + 4) = S'.take (2 * r + 4)) {k : Nat} (hk : k ≤ r) (x : Block) :
    encLoop S 1 k x = encLoop S' 1 k x := by
  induction k with
  | zero => rfl
  | succ k ih => rw [encLoop_succ, encLoop_succ, ih (by omega), encRound_congr h (by omega)]

theorem decLoop_congr (h : S.take (2 * r + 4) = S'.take (2 * r + 4)) {k : Nat} (hk : k ≤ r) (x : Block) :
    decLoop S k x = decLoop S' k x := by
  induction k generalizing x with
  | zero => rfl
  | succ k ih => rw [decLoop, decLoop, decRound_congr h hk, ih (by omega)]

theorem encPre_congr (h : S.take (2 * r + 4) = S'.take (2 * r + 4)) (x : Block) : encPre S x = encPre S' x := by
  simp only [encPre, wordAt_congr_take h (show 0 < 2 * r + 4 by omega), wordAt_congr_take h (show 1 < 2 * r + 4 by omega)]

theorem encPost_congr (h : S.take (2 * r + 4) = S'.take (2 * r + 4)) (x : Block) : encPost S r x = encPost S' r x := by
  simp only [encPost, wordAt_congr_take h (show 2 * r + 2 < 2 * r + 4 by omega), wordAt_congr_take h (show 2 * r + 3 < 2 * r + 4 by omega)]

theorem decPre_congr (h : S.take (2 * r + 4) = S'.take (2 * r + 4)) (x : Block) : decPre S r x = decPre S' r x := by
  simp only [decPre, wordAt_congr_take h (show 2 * r + 2 < 2 * r + 4 by omega), wordAt_congr_take h (show 2 * r + 3 < 2 * r + 4 by omega)]

theorem decPost_congr (h : S.take (2 * r + 4) = S'.take (2 * r + 4)) (x : Block) : decPost S x = decPost S' x := by
  simp only [decPost, wordAt_congr_take h (show 0 < 2 * r + 4 by omega), wordAt_congr_take h (show 1 < 2 * r + 4 by omega)]

theorem encryptBlock_congr (h : S.take (2 * r + 4) = S'.take (2 * r + 4)) (x : Block) : encryptBlock S r x = encryptBlock S' r x := by
  simp only [encryptBlock, encPre_congr h, encLoop_congr h le_rfl, encPost_congr h]

theorem decryptBlock_congr (h : S.take (2 * r + 4) = S'.take (2 * r + 4)) (x : Block) : decryptBlock S r x = decryptBlock S' r x := by
  simp only [decryptBlock, decPre_congr h, decLoop_congr h le_rfl, decPost_congr h]

end

/-- Settles O57: every index that the rounds, the whitening and its removal read lies below 2r+4. -/
theorem transformsReadOnlyTheInstanceTable : Obligations.TransformsReadOnlyTheInstanceTable :=
  fun _ _ _ x h => ⟨encryptBlock_congr h x, decryptBlock_congr h x⟩

end Sys2Proof.Machine
end

section
/-! Proofs that every step keeps the two invariants of the state (spec/10_state.md rule R41, rule R47), and the lemmas they need. -/

namespace Sys2Proof.Machine

/-! ### The control state (rule R41) -/

theorem State.Wf.idle_of_not_busy {s : State} (hw : s.Wf) (hb : ¬s.status.busy = true) : s.fsm = .idle :=
  not_not.mp (mt hw.busy.2 hb)

theorem State.Wf.not_busy_of_idle {s : State} (hw : s.Wf) (hf : s.fsm = .idle) : s.status.busy = false :=
  Bool.eq_false_iff.2 fun h => hw.busy.1 h hf

/-- The tick of a cycle is that of the state its access leaves, or there is none. -/
theorem State.Wf.tick_of_effect {s sb : State} (hw : s.Wf) (heff : BusEffect s sb) : tick s sb = tick sb sb ∨ tick s sb = sb := by
  by_cases hb : s.status.busy = true
  · exact .inl (tick_of_busyShape (heff.of_busy hb))
  · exact .inr (tick_idle sb (hw.idle_of_not_busy hb))

/-- An invariant of well-formed states that reset states meet, that every access and every tick keeps, and that does not look at the
script and the bus record, is kept by every step. -/
theorem step_keeps {Inv : State → Prop} (hreset : ∀ b u script n, b.wellFormed = true → u.S.length = b.sLen → u.L.length = b.cMax →
      Inv (State.afterReset b u script n))
    (haccess : ∀ {s sb}, s.Wf → Inv s → BusEffect s sb → Inv sb) (htick : ∀ {s}, s.Wf → Inv s → Inv (tick s s))
    (hbus : ∀ {s} script rdata, Inv s → Inv { s with script := script, rdata := rdata })
    {s t : State} (hw : s.Wf) (hs : Inv s) (h : step s = .next t) : Inv t := by
  obtain ⟨-, rfl⟩ | ⟨-, sb, -, heff, rfl⟩ := step_cases h
  · exact hreset _ _ _ _ hw.build (by simp [Unspecified.drawn]) (by simp [Unspecified.drawn])
  · have hsb : Inv sb := haccess hw hs heff
    refine hbus _ _ ?_
    obtain hself | hnone := hw.tick_of_effect heff
    · rw [hself]; exact htick (heff.wf hw) hsb
    · rw [hnone]; exact hsb

theorem State.Wf.of_step {s t : State} (hw : s.Wf) (h : step s = .next t) : t.Wf :=
  step_keeps (Inv := State.Wf) (fun _ u script n hb hS hL => wf_afterReset hb u hS hL script n) (fun hw _ heff => heff.wf hw)
    (fun hw _ => hw.tick_self) (fun script rdata hw => wf_script hw script rdata) hw hw h

/-- Settles O46: reset leaves a well-formed state, and the access and the tick keep one. -/
theorem stepKeepsTheControlWellFormed : Obligations.StepKeepsTheControlWellFormed := fun _ _ => State.Wf.of_step

/-! ### The cipher table (rule R47) -/

/-- The acceptance of a KEYGEN: L holds the packed key bytes, and no entry of S is computed yet. -/
theorem building_of_accepted {s : State} (hw : s.Wf) (hl : configLegal s = true) :
    (acceptCommon Instr.keygen.op (endCipher (latchKeygen s))).Building (keyBytes s.key s.keylen.toNat) ∧
      (keyBytes s.key s.keylen.toNat).length = s.keylen.toNat := by
  obtain ⟨-, -, hmax⟩ := (configLegal_iff s).1 hl
  obtain ⟨hmin, -⟩ := Build.cMax_bounds hw.build
  have hfit : s.keylen.toNat ≤ 4 * s.key.length := by
    rw [hw.keyLen, Build.cMax]
    omega
  have hlen := keyBytes_length hfit
  have hL := take_loadL hfit (by rw [hw.keyLen]; omega)
  rw [hw.keyLen] at hL
  exact ⟨⟨congrArg keyWordCount hlen.symm, hL, rfl⟩, hlen⟩

/-- The access of a cycle keeps the cipher-table invariant: an accepted KEYGEN begins a table, and no other access writes one. -/
theorem State.TableInv.of_effect {s sb : State} (hw : s.Wf) (h : s.TableInv) (heff : BusEffect s sb) : sb.TableInv := by
  obtain ⟨hvalid, hbuilding⟩ := h
  cases heff with
  | keygen _ hl =>
    obtain ⟨-, -, hmax⟩ := (configLegal_iff s).1 hl
    obtain ⟨hbegun, hlen⟩ := building_of_accepted hw hl
    exact ⟨nofun, fun _ => ⟨_, hlen.trans_le hmax, hbegun⟩⟩
  | encrypt | decrypt => exact ⟨hvalid, nofun⟩
  | clrkey => exact ⟨nofun, nofun⟩
  | status v => rw [Status.w1c_eq]; exact ⟨hvalid, hbuilding⟩
  | _ => exact ⟨hvalid, hbuilding⟩

/-- The tick stays in the sequence of the command that runs, or completes it. -/
theorem op_tick_self (s : State) : (tick s s).fsm.op = if s.fsm.completes then 0 else s.fsm.op := by
  cases hf : s.fsm with
  | idle => rw [tick_idle s hf, hf]; rfl
  | kgP1 => rw [tick_kgP1 hf]; dsimp only; split <;> rfl
  | kgP2 => rw [tick_kgP2 hf, tickKgP2]; dsimp only; split <;> rfl
  | enRnd => rw [tick_enRnd hf, tickEnRnd]; dsimp only; split <;> rfl
  | deRnd => rw [tick_deRnd hf, tickDeRnd]; dsimp only; split <;> rfl
  | ckClr => rw [tick_ckClr hf]; dsimp only; split <;> rfl
  | _ => simp only [tick, hf]; rfl

theorem op_tick_self_ne {s : State} {op : BitVec 4} (h0 : op ≠ 0) (h : s.fsm.op ≠ op) : (tick s s).fsm.op ≠ op := by
  rw [op_tick_self]
  split
  · exact h0.symm
  · exact h

/-- A tick of KEYGEN keeps the cipher-table invariant: the phases go on with the table, and the completion makes it valid. -/
theorem State.TableInv.tick_keygen {s : State} (hw : s.Wf) (h : s.TableInv) (hop : s.fsm.op = Instr.keygen.op) : (tick s s).TableInv := by
  obtain ⟨K, hK, hbuilding⟩ := h.building hop
  obtain ⟨hkv, -, -, -, -, hNL, -⟩ := hw.keygen hop
  have hbuild : (tick s s).build = s.build := (tick_frame s s).1
  have hphase (hf : s.fsm ≠ .kgFin) : (tick s s).status.keyValid ≠ true := by rw [tick_keyValid, if_neg hf, hkv]; decide
  obtain hf | hf | hf := (Fsm.op_eq_keygen_iff s.fsm).1 hop
  · exact ⟨fun hv => absurd hv (hphase (by rw [hf]; decide)), fun _ => ⟨K, hbuild ▸ hK, building_tick_kgP1 hw hf hbuilding⟩⟩
  · exact ⟨fun hv => absurd hv (hphase (by rw [hf]; decide)), fun _ => ⟨K, hbuild ▸ hK, building_tick_kgP2 hw hf hbuilding⟩⟩
  · simp only [Building, hf, hNL] at hbuilding
    rw [tick_kgFin hf]
    exact ⟨fun _ => ⟨K, hK, hbuilding⟩, nofun⟩

/-- The tick keeps the cipher-table invariant: with a valid key neither KEYGEN nor CLRKEY runs, and no other tick writes the table. -/
theorem State.TableInv.tick_self {s : State} (hw : s.Wf) (h : s.TableInv) : (tick s s).TableInv := by
  by_cases hk : s.fsm.op = Instr.keygen.op
  · exact h.tick_keygen hw hk
  · refine ⟨fun hv => ?_, fun hop => absurd hop (op_tick_self_ne (by decide) hk)⟩
    have hv' : s.status.keyValid = true := by rwa [tick_keyValid, if_neg fun hf => hk (by rw [hf]; rfl)] at hv
    have hc : s.fsm.op ≠ Instr.clrkey.op := fun hop => absurd ((hw.clrkey hop).symm.trans hv') (by decide)
    obtain ⟨hS, hR, -⟩ := sameCipher_tick s hk hc
    rw [(tick_frame s s).1, schedRounds, hS, hR]
    exact h.valid hv'

/-- Settles O47: reset leaves no key, and the access and the tick keep the invariant. -/
theorem stepKeepsTheCipherTable : Obligations.StepKeepsTheCipherTable := fun _ _ =>
  step_keeps (fun b u script n _ _ _ => tableInv_afterReset b u script n) (fun hw h heff => h.of_effect hw heff)
    (fun hw h => h.tick_self hw) (fun _ _ h => ⟨h.valid, h.building⟩)

end Sys2Proof.Machine
end

section
/-! The run of any command from its acceptance to its completion, from what each access and each tick of the run keep. -/

namespace Sys2Proof.Machine

theorem completes_eq_false_of_ticksLeft {s : State} (h : s.ticksLeft ≠ 0) : s.fsm.completes = false := by
  cases hf : s.fsm with
  | kgFin | enFin | deFin | ckFin => exact absurd (by simp only [State.ticksLeft, hf]) h
  | _ => rfl

/-- P holds while a command runs: the accesses of a busy cycle and every tick but the completion tick keep it, and the completion tick
leaves Q; neither looks at the script and the bus record. -/
structure RunInvariant (P Q : State → Prop) : Prop where
  running : ∀ {u}, P u → u.Wf ∧ u.status.busy = true
  access : ∀ {u sb}, P u → BusyShape u sb → sb.Wf → P sb
  tick : ∀ {u}, P u → u.fsm.completes = false → P (tick u u)
  completion : ∀ {u}, P u → u.fsm.completes = true → Q (Machine.tick u u)
  bus : ∀ {u} script rdata, P u → P { u with script := script, rdata := rdata }
  busAfter : ∀ {u} script rdata, Q u → Q { u with script := script, rdata := rdata }

/-- The run of a command that an idle engine accepts, by an invariant that holds from its acceptance on. -/
theorem RunInvariant.runCycles {P Q : State → Prop} (hinv : RunInvariant P Q) {i : Instr} {s sb : State} {p : Pins} {rest : List Pins}
    (hn : s.NoReset) (hs : s.script = p :: rest) (hp : commands s.build i p) (hf : s.fsm = .idle) (hsb : exec i s = .next sb)
    (hP : P sb) :
    ∃ N t, runCycles (N + 1) s = .next t ∧ (∀ k, 1 ≤ k → k ≤ N → ∃ u, runCycles k s = .next u ∧ P u) ∧ Q t := by
  obtain ⟨sb', hsb', hacc⟩ := step_of_command hs (hn p (by rw [hs]; exact List.mem_cons_self)) hp
  cases hsb.symm.trans hsb'
  rw [tick_idle sb hf] at hacc
  refine runCycles_of_command (μ := State.ticksLeft) hn hacc (hinv.bus _ _ hP) (fun u hu hleft hr => ?_) (fun u hu hleft hr => ?_)
  · obtain ⟨hw, hb⟩ := hinv.running hu
    obtain ⟨ub, hshape, hwb, hstep⟩ := step_of_busy hw hb hr
    have hticks := hshape.ticksLeft_eq
    have hleft' : ub.ticksLeft ≠ 0 := hticks ▸ hleft
    have hub := hinv.tick (hinv.access hu hshape hwb) (completes_eq_false_of_ticksLeft hleft')
    exact ⟨_, hstep, hinv.bus _ _ hub, (hwb.ticksLeft_tick hleft').trans hticks⟩
  · obtain ⟨hw, hb⟩ := hinv.running hu
    obtain ⟨ub, hshape, hwb, hstep⟩ := step_of_busy hw hb hr
    have hub := hinv.access hu hshape hwb
    have hcompletes := hwb.completes_of_no_ticks_left (hinv.running hub).2 (hshape.ticksLeft_eq.trans hleft)
    exact ⟨_, hstep, hinv.busAfter _ _ (hinv.completion hub hcompletes)⟩

end Sys2Proof.Machine
end

section
/-! Proofs that an ENCRYPT and a DECRYPT compute the pure transforms (spec/42_round_function.md rule R151, rule R158), whatever the host
does meanwhile: the ticks keep the block that the transform will leave in DOUT. -/

namespace Sys2Proof.Machine

/-! ### The block that a running transform will leave in DOUT -/

/-- The working registers as a block (rule R36). -/
def State.working (s : State) : Block := ⟨s.WA, s.WB, s.WC, s.WD⟩

/-- What remains of the running transform (rule R151, rule R158), applied to the working registers; DOUT itself when none runs. -/
def State.output (s : State) : Block :=
  match s.fsm with
  | .enPre => encryptBlock s.S (schedRounds s) s.working
  | .enRnd => encPost s.S (schedRounds s) (encLoop s.S s.RI (schedRounds s + 1 - s.RI) s.working)
  | .enFin => encPost s.S (schedRounds s) s.working
  | .dePre => decryptBlock s.S (schedRounds s) s.working
  | .deRnd => decPost s.S (decLoop s.S s.RI s.working)
  | .deFin => decPost s.S s.working
  | .idle | .kgP1 | .kgP2 | .kgFin | .ckClr | .ckFin => s.dout

/-- Rule R153: the tick of EN_RND is one iteration of the encryption loop. -/
theorem output_tick_enRnd {s : State} (hw : s.Wf) (hf : s.fsm = .enRnd) : (tick s s).output = s.output := by
  obtain ⟨-, hmax⟩ := hw.enRnd hf
  have hround : (tickEnRnd s s).working = encRound s.S s.RI s.working := rfl
  have hleft : schedRounds s + 1 - s.RI = schedRounds s - s.RI + 1 := by omega
  simp only [State.output, hf, hleft, encLoop, ← hround]
  rw [tick_enRnd hf]
  by_cases hlast : s.RI = schedRounds s
  · have hfsm : (tickEnRnd s s).fsm = .enFin := if_pos hlast
    simp only [hfsm, hlast, Nat.sub_self, encLoop]
    rfl
  · have hfsm : (tickEnRnd s s).fsm = .enRnd := if_neg hlast
    have hnext : schedRounds s + 1 - (s.RI + 1) = schedRounds s - s.RI := by omega
    simp only [hfsm, ← hnext]
    rfl

/-- Rule R160: the tick of DE_RND is one iteration of the decryption loop. -/
theorem output_tick_deRnd {s : State} (hw : s.Wf) (hf : s.fsm = .deRnd) : (tick s s).output = s.output := by
  obtain ⟨hmin, -⟩ := hw.deRnd hf
  have hround : (tickDeRnd s s).working = decRound s.S s.RI s.working := rfl
  obtain ⟨i, hi⟩ := Nat.exists_eq_add_of_le' hmin
  rw [hi] at hround
  simp only [State.output, hf, hi, decLoop, ← hround]
  rw [tick_deRnd hf]
  by_cases hlast : s.RI = 1
  · have hfsm : (tickDeRnd s s).fsm = .deFin := if_pos hlast
    obtain rfl : i = 0 := by omega
    simp only [hfsm, decLoop]
    rfl
  · have hfsm : (tickDeRnd s s).fsm = .deRnd := if_neg hlast
    have hRI : (tickDeRnd s s).RI = i := by simp only [tickDeRnd, hi, Nat.add_sub_cancel]
    simp only [hfsm, hRI]
    rfl

/-- Every tick of a transform keeps what it will leave in DOUT; the completion tick leaves it there. -/
theorem output_tick {s : State} (hw : s.Wf) (hop : s.fsm.op = Instr.encrypt.op ∨ s.fsm.op = Instr.decrypt.op) :
    (tick s s).output = s.output := by
  cases hf : s.fsm with
  | enRnd => exact output_tick_enRnd hw hf
  | deRnd => exact output_tick_deRnd hw hf
  | enPre | enFin | dePre | deFin => simp only [tick, State.output, hf]; rfl
  | idle | kgP1 | kgP2 | kgFin | ckClr | ckFin => rw [hf] at hop; exact absurd hop (by decide)

/-! ### A running transform -/

/-- The state s stands in the run of the transform i that was accepted in the state s₀ and will leave the block y in DOUT. -/
structure State.InTransformOf (i : Instr) (y : Block) (s₀ s : State) : Prop where
  wf : s.Wf
  op : s.fsm.op = i.op
  output : s.output = y
  S : s.S = s₀.S
  L : s.L = s₀.L
  schedR : s.status.schedR = s₀.status.schedR
  dout : s.dout = s₀.dout

/-- What a completed transform, accepted in the state s₀, leaves: the block y in DOUT, and S, L and the cipher as they were. -/
structure State.TransformDone (i : Instr) (y : Block) (s₀ t : State) : Prop where
  dout : t.dout = y
  S : t.S = s₀.S
  L : t.L = s₀.L
  cipher : t.status.keyValid = true ∧ t.status.schedR = s₀.status.schedR
  control : t.status.busy = false ∧ t.status.done = true ∧ t.status.activeOp = i.op ∧ t.fsm = .idle

section
variable {i : Instr} {y : Block} {s₀ s : State}

theorem State.InTransformOf.isTransform (hi : i = .encrypt ∨ i = .decrypt) (h : s₀.InTransformOf i y s) :
    s.fsm.op = Instr.encrypt.op ∨ s.fsm.op = Instr.decrypt.op := by
  rw [h.op]
  exact hi.imp (congrArg Instr.op) (congrArg Instr.op)

theorem State.InTransformOf.ne_idle (hi : i = .encrypt ∨ i = .decrypt) (h : s₀.InTransformOf i y s) : s.fsm ≠ .idle := by
  intro hf
  have hop := h.isTransform hi
  rw [hf] at hop
  exact absurd hop (by decide)

/-- The accesses of a busy cycle leave the run where it is. -/
theorem State.InTransformOf.of_busyShape {sb : State} (h : s₀.InTransformOf i y s) (hshape : BusyShape s sb) (hw : sb.Wf) :
    s₀.InTransformOf i y sb := by
  obtain ⟨-, hop, houtput, hS, hL, hsched, hdout⟩ := h
  obtain ⟨st, e, c, k, d, key, rfl, -, -, -, hr, -⟩ := hshape
  simp only [State.output, schedRounds] at houtput
  exact ⟨hw, hop, by simp only [State.output, schedRounds, hr]; exact houtput, hS, hL, hr.trans hsched, hdout⟩

theorem State.InTransformOf.withBus (script : List Pins) (rdata : Word) (h : s₀.InTransformOf i y s) :
    s₀.InTransformOf i y { s with script := script, rdata := rdata } :=
  ⟨wf_script h.wf _ _, h.op, h.output, h.S, h.L, h.schedR, h.dout⟩

/-- What the ticks of a transform leave: the cipher table and L. -/
theorem tick_transform_frame (hop : s.fsm.op = Instr.encrypt.op ∨ s.fsm.op = Instr.decrypt.op) :
    SameCipher s (tick s s) ∧ (tick s s).L = s.L := by
  cases hf : s.fsm with
  | enPre | enRnd | enFin | dePre | deRnd | deFin => simp only [tick, hf]; exact ⟨⟨rfl, rfl, rfl⟩, rfl⟩
  | idle | kgP1 | kgP2 | kgFin | ckClr | ckFin => rw [hf] at hop; exact absurd hop (by decide)

/-- A tick before the completion tick stays in the run. -/
theorem State.InTransformOf.tick_next (hi : i = .encrypt ∨ i = .decrypt) (h : s₀.InTransformOf i y s)
    (hc : s.fsm.completes = false) : s₀.InTransformOf i y (tick s s) := by
  obtain ⟨⟨hS, hR, -⟩, hL⟩ := tick_transform_frame (h.isTransform hi)
  have hdout : (tick s s).dout = s.dout := by
    apply tick_dout <;> (intro hf; rw [hf] at hc; exact absurd hc (by decide))
  have hop : (tick s s).fsm.op = s.fsm.op := by rw [op_tick_self, hc]; rfl
  exact ⟨h.wf.tick_self, hop.trans h.op, (output_tick h.wf (h.isTransform hi)).trans h.output, hS.trans h.S, hL.trans h.L,
    hR.trans h.schedR, hdout.trans h.dout⟩

/-- The completion tick leaves what the whole transform has to leave. -/
theorem State.InTransformOf.tick_last (hi : i = .encrypt ∨ i = .decrypt) (h : s₀.InTransformOf i y s)
    (hc : s.fsm.completes = true) : s₀.TransformDone i y (tick s s) := by
  obtain ⟨⟨hS, hR, hV⟩, hL⟩ := tick_transform_frame (h.isTransform hi)
  obtain ⟨hbusy, hdone, hidle⟩ := tick_of_completes hc s
  have hvalid : s.status.keyValid = true := (h.isTransform hi).elim h.wf.encrypt h.wf.decrypt
  have hactive : (tick s s).status.activeOp = i.op := by
    obtain ⟨-, -, -, -, -, -, -, -, -, hactive, -⟩ := tick_frame s s
    exact hactive.trans ((h.wf.active (h.ne_idle hi)).trans h.op)
  have hdout : (tick s s).output = (tick s s).dout := by simp only [State.output, hidle]
  exact ⟨hdout.symm.trans ((output_tick h.wf (h.isTransform hi)).trans h.output), hS.trans h.S, hL.trans h.L,
    ⟨hV.trans hvalid, hR.trans h.schedR⟩, hbusy, hdone, hactive, hidle⟩

theorem runInvariant_transform (hi : i = .encrypt ∨ i = .decrypt) : RunInvariant (s₀.InTransformOf i y) (s₀.TransformDone i y) where
  running hu := ⟨hu.wf, hu.wf.busy.2 (hu.ne_idle hi)⟩
  access hu := hu.of_busyShape
  tick hu := hu.tick_next hi
  completion hu := hu.tick_last hi
  bus script rdata hu := hu.withBus script rdata
  busAfter _ _ ht := { ht with }

end

/-- The run of a transform from its acceptance to its completion. -/
theorem transform_completes {i : Instr} (hi : i = .encrypt ∨ i = .decrypt) {y : Block} {s sb : State} {p : Pins} {rest : List Pins}
    (hn : s.NoReset) (hs : s.script = p :: rest) (hp : commands s.build i p) (hf : s.fsm = .idle) (hsb : exec i s = .next sb)
    (hrun : s.InTransformOf i y sb) :
    ∃ N t, runCycles (N + 1) s = .next t ∧
      (∀ k, 1 ≤ k → k ≤ N → ∃ u, runCycles k s = .next u ∧ u.status.busy = true ∧ u.dout = s.dout ∧ u.S = s.S) ∧
      s.TransformDone i y t := by
  obtain ⟨N, t, ht, hbusy, hdone⟩ :=
    (runInvariant_transform hi).runCycles hn hs hp hf hsb hrun
  refine ⟨N, t, ht, fun k h1 hk => ?_, hdone⟩
  obtain ⟨u, hu, hrun⟩ := hbusy k h1 hk
  exact ⟨u, hu, hrun.wf.busy.2 (hrun.ne_idle hi), hrun.dout, hrun.S⟩

/-- Settles O32: the acceptance begins the run with Encrypt of DIN to come, and Encrypt reads the entries S[0..2r+3] alone. -/
theorem encryptComputesTheCiphertext : Obligations.EncryptComputesTheCiphertext := by
  intro s p rest hw hn hs hp hf hk
  have hb := hw.not_busy_of_idle hf
  have hsb : exec .encrypt s = .next (acceptEncrypt s) := by rw [exec_encrypt_of_idle hb, needsKey_of_valid hk]
  have hrun : s.InTransformOf .encrypt (encryptBlock s.S (schedRounds s) s.din) (acceptEncrypt s) :=
    ⟨(BusEffect.encrypt hb hk).wf hw, rfl, rfl, rfl, rfl, rfl, rfl⟩
  obtain ⟨N, t, ht, hbusy, hdout, hS, hL, ⟨hV, hR⟩, hbusy', hdone, hactive, hidle⟩ :=
    transform_completes (.inl rfl) hn hs hp hf hsb hrun
  refine ⟨N, t, ht, hbusy, hdout.trans (encryptBlock_congr ?_ _), hS, hL, hV, hR, hbusy', hdone, hactive, hidle⟩
  rw [List.take_take, schedRounds, Nat.min_self]

/-- Settles O33: the same with Decrypt. -/
theorem decryptComputesThePlaintext : Obligations.DecryptComputesThePlaintext := by
  intro s p rest hw hn hs hp hf hk
  have hb := hw.not_busy_of_idle hf
  have hsb : exec .decrypt s = .next (acceptDecrypt s) := by rw [exec_decrypt_of_idle hb, needsKey_of_valid hk]
  have hrun : s.InTransformOf .decrypt (decryptBlock s.S (schedRounds s) s.din) (acceptDecrypt s) :=
    ⟨(BusEffect.decrypt hb hk).wf hw, rfl, rfl, rfl, rfl, rfl, rfl⟩
  obtain ⟨N, t, ht, hbusy, hdout, hS, hL, ⟨hV, hR⟩, hbusy', hdone, hactive, hidle⟩ :=
    transform_completes (.inr rfl) hn hs hp hf hsb hrun
  refine ⟨N, t, ht, hbusy, hdout.trans (decryptBlock_congr ?_ _), hS, hL, hV, hR, hbusy', hdone, hactive, hidle⟩
  rw [List.take_take, schedRounds, Nat.min_self]

end Sys2Proof.Machine
end

section
/-! Proof that a CLRKEY zeroes the key state (spec/41_key_schedule.md rule R136 to rule R138), whatever the host does meanwhile. -/

namespace Sys2Proof.Machine

/-! ### A running CLRKEY -/

/-- The entries of S that a running CLRKEY has zeroed: those below the cursor, and after the loop all of them (rule R137). -/
def State.zeroed (s : State) : Nat :=
  if s.fsm = .ckClr then s.SI else s.build.sLen

/-- The state s stands in the run of the CLRKEY that was accepted in the state s₀. -/
structure State.InClrkeyOf (s₀ s : State) : Prop where
  wf : s.Wf
  op : s.fsm.op = Instr.clrkey.op
  build : s.build = s₀.build
  zeroed : s.S.take s.zeroed = List.replicate s.zeroed 0
  dout : s.dout = s₀.dout

/-- What a completed CLRKEY, accepted in the state s₀, leaves, the KEY registers apart (rule R138). -/
structure State.ClrkeyDone (s₀ t : State) : Prop where
  S : t.S = List.replicate s₀.build.sLen 0
  scratch : t.L = List.replicate s₀.build.cMax 0 ∧ t.KA = 0 ∧ t.KB = 0
  cipher : t.status.keyValid = false ∧ t.status.schedR = 0
  control : t.status.busy = false ∧ t.status.done = true ∧ t.status.activeOp = Instr.clrkey.op ∧ t.fsm = .idle
  dout : t.dout = s₀.dout

theorem Fsm.op_eq_clrkey_iff (f : Fsm) : f.op = Instr.clrkey.op ↔ f = .ckClr ∨ f = .ckFin := by
  cases f <;> decide

section
variable {s₀ s : State}

theorem State.InClrkeyOf.ne_idle (h : s₀.InClrkeyOf s) : s.fsm ≠ .idle := by
  intro hf
  have hop := h.op
  rw [hf] at hop
  exact absurd hop (by decide)

/-- The accesses of a busy cycle leave the run where it is. -/
theorem State.InClrkeyOf.of_busyShape {sb : State} (h : s₀.InClrkeyOf s) (hshape : BusyShape s sb) (hw : sb.Wf) :
    s₀.InClrkeyOf sb := by
  obtain ⟨st, e, c, k, d, key, rfl, -⟩ := hshape
  exact ⟨hw, h.op, h.build, h.zeroed, h.dout⟩

theorem State.InClrkeyOf.withBus (script : List Pins) (rdata : Word) (h : s₀.InClrkeyOf s) :
    s₀.InClrkeyOf { s with script := script, rdata := rdata } :=
  ⟨wf_script h.wf _ _, h.op, h.build, h.zeroed, h.dout⟩

/-- The tick of CK_CLR zeroes one more entry of S. -/
theorem zeroed_tick_ckClr (hw : s.Wf) (hf : s.fsm = .ckClr) (hz : s.S.take s.zeroed = List.replicate s.zeroed 0) :
    (tick s s).S.take (tick s s).zeroed = List.replicate (tick s s).zeroed 0 := by
  have hSI : s.SI < s.S.length := by rw [hw.sLen]; exact hw.ckClr hf
  have hnext : (tick s s).zeroed = s.SI + 1 := by
    rw [tick_ckClr hf]
    by_cases hlast : s.SI = 2 * s.build.rMax + 3
    · simp [State.zeroed, hlast, Build.sLen]
    · simp [State.zeroed, hlast]
  rw [State.zeroed, if_pos hf] at hz
  rw [hnext, tick_ckClr hf, take_succ_set 0 hSI, hz, List.replicate_succ']

/-- A tick before the completion tick stays in the run. -/
theorem State.InClrkeyOf.tick_next (h : s₀.InClrkeyOf s) (hc : s.fsm.completes = false) : s₀.InClrkeyOf (tick s s) := by
  have hop : (tick s s).fsm.op = s.fsm.op := by rw [op_tick_self, hc]; rfl
  obtain hf | hf := (Fsm.op_eq_clrkey_iff s.fsm).1 h.op
  · have hdout : (tick s s).dout = s.dout := tick_dout s (by rw [hf]; decide) (by rw [hf]; decide)
    exact ⟨h.wf.tick_self, hop.trans h.op, (tick_frame s s).1.trans h.build, zeroed_tick_ckClr h.wf hf h.zeroed,
      hdout.trans h.dout⟩
  · rw [hf] at hc
    exact absurd hc (by decide)

/-- The completion tick leaves what the whole CLRKEY has to leave. -/
theorem State.InClrkeyOf.tick_last (h : s₀.InClrkeyOf s) (hc : s.fsm.completes = true) : s₀.ClrkeyDone (tick s s) := by
  obtain ⟨hw, hop, hbuild, hzeroed, hdout⟩ := h
  obtain hf | hf := (Fsm.op_eq_clrkey_iff s.fsm).1 hop
  · rw [hf] at hc
    exact absurd hc (by decide)
  · have hactive : s.status.activeOp = Instr.clrkey.op := (hw.active (by rw [hf]; decide)).trans hop
    have hkey : s.status.keyValid = false := hw.clrkey hop
    rw [State.zeroed, if_neg (by rw [hf]; decide), List.take_of_length_le hw.sLen.le, hbuild] at hzeroed
    rw [tick_ckFin hf, tickCkFin]
    exact ⟨hzeroed, ⟨by simp [hbuild], rfl, rfl⟩, ⟨hkey, hw.status.noKey hkey⟩, ⟨rfl, rfl, hactive, rfl⟩, hdout⟩

theorem runInvariant_clrkey : RunInvariant s₀.InClrkeyOf s₀.ClrkeyDone where
  running hu := ⟨hu.wf, hu.wf.busy.2 hu.ne_idle⟩
  access hu := hu.of_busyShape
  tick hu := hu.tick_next
  completion hu := hu.tick_last
  bus script rdata hu := hu.withBus script rdata
  busAfter _ _ ht := { ht with }

end

/-! ### The KEY registers while a command runs (rule R186) -/

/-- The host writes no KEY register in any cycle to come. -/
def State.NoKeyWrite (s : State) : Prop := ∀ p ∈ s.script, writesKey s.build p = false

theorem State.NoKeyWrite.nextPins {s : State} (h : s.NoKeyWrite) : writesKey s.build (nextPins s) = false := by
  cases hs : s.script with
  | nil => rw [Machine.nextPins, hs]; rfl
  | cons p rest => rw [nextPins_of_cons hs]; exact h p (by rw [hs]; exact List.mem_cons_self)

/-- While BUSY = 1, when no CLRKEY is accepted, a write of a KEY register is the one access that writes KEY. -/
theorem busEffects_key_of_busy {s sb : State} {p : Pins} (hb : s.status.busy = true) (hk : writesKey s.build p = false)
    (h : busEffects s p.access = .next sb) : sb.key = s.key := by
  cases ha : p.access with
  | idle | read => rw [ha] at h; cases h; rfl
  | write a v =>
    rw [ha] at h
    cases hr : decodeAddr s.build a with
    | cmd =>
      simp only [busEffects, hr, commandWrite] at h
      split at h
      · rw [exec_of_busy _ hb] at h
        cases h
        split <;> rfl
      · cases h; rfl
    | key k => simp [writesKey, ha, hr] at hk
    | _ => rw [busEffects_write_of_decodeAddr hr (by simp)] at h; cases h; rfl

theorem step_key_of_busy {s t : State} (hn : s.NoReset) (hk : s.NoKeyWrite) (hb : s.status.busy = true) (h : step s = .next t) :
    t.key = s.key ∧ t.NoKeyWrite := by
  obtain ⟨hr, -⟩ | ⟨-, sb, hsb, heff, rfl⟩ := step_cases h
  · exact absurd hn.rstN (by rw [hr]; decide)
  · obtain ⟨hbuild, -, -, -, -, hkey, -⟩ := tick_frame s sb
    have hsb' : sb.build = s.build := by cases heff <;> rfl
    refine ⟨hkey.trans (busEffects_key_of_busy hb hk.nextPins hsb), fun p hp => ?_⟩
    rw [show (commit s sb).build = s.build from hbuild.trans hsb']
    exact hk p (List.mem_of_mem_tail hp)

/-- Over cycles that begin busy and write no KEY register, KEY stays. -/
theorem runCycles_key_of_busy {k : Nat} {s t : State} (hn : s.NoReset) (hk : s.NoKeyWrite)
    (hbusy : ∀ j, j < k → ∃ u, runCycles j s = .next u ∧ u.status.busy = true) (h : runCycles k s = .next t) : t.key = s.key := by
  induction k generalizing s with
  | zero => cases h; rfl
  | succ k ih =>
    obtain ⟨s₁, hs₁⟩ := step_isNext s
    obtain ⟨_, hs, hb⟩ := hbusy 0 (Nat.succ_pos k)
    cases hs
    obtain ⟨hkey, hk₁⟩ := step_key_of_busy hn hk hb hs₁
    rw [runCycles_of_step hs₁] at h
    refine (ih (hn.of_step hs₁) hk₁ (fun j hj => ?_) h).trans hkey
    obtain ⟨u, hu, hub⟩ := hbusy (j + 1) (Nat.succ_lt_succ hj)
    exact ⟨u, (runCycles_of_step hs₁ j).symm.trans hu, hub⟩

/-! ### The whole command -/

/-- Settles O34: the acceptance zeroes KEY and begins the run with no entry of S zeroed; the loop zeroes them all, and while it runs only
the host writes KEY. -/
theorem clrkeyZeroesTheKeyState : Obligations.ClrkeyZeroesTheKeyState := by
  intro s p rest hw hn hs hp hf
  have hb := hw.not_busy_of_idle hf
  have hsb : exec .clrkey s = .next (acceptClrkey s) := exec_clrkey_of_idle hb
  have hrun : s.InClrkeyOf (acceptClrkey s) := ⟨(BusEffect.clrkey hb).wf hw, rfl, rfl, rfl, rfl⟩
  obtain ⟨N, t, ht, hbusy, hS, ⟨hL, hKA, hKB⟩, ⟨hV, hR⟩, ⟨hbusy', hdone, hactive, hidle⟩, hdout⟩ :=
    runInvariant_clrkey.runCycles hn hs hp hf hsb hrun
  have hrunning (k : Nat) (h1 : 1 ≤ k) (hk : k ≤ N) :
      ∃ u, runCycles k s = .next u ∧ u.status.busy = true ∧ u.status.keyValid = false ∧ u.dout = s.dout := by
    obtain ⟨u, hu, hrun⟩ := hbusy k h1 hk
    exact ⟨u, hu, hrun.wf.busy.2 hrun.ne_idle, hrun.wf.clrkey hrun.op, hrun.dout⟩
  refine ⟨N, t, ht, hrunning, hS, hL, hKA, hKB, fun hnokey => ?_, hV, hR, hbusy', hdone, hactive, hidle, hdout⟩
  obtain ⟨_, hsb', hacc⟩ := step_of_command hs (hn p (by rw [hs]; exact List.mem_cons_self)) hp
  cases hsb.symm.trans hsb'
  rw [tick_idle _ hf] at hacc
  refine runCycles_key_of_busy (hn.of_step hacc) hnokey (fun j hj => ?_) ((runCycles_of_step hacc N).symm.trans ht)
  obtain ⟨u, hu, hub, -⟩ := hrunning (j + 1) (Nat.succ_pos j) hj
  exact ⟨u, (runCycles_of_step hacc j).symm.trans hu, hub⟩

end Sys2Proof.Machine
end

section
/-! Proof of the number of ticks of each command (spec/43_control.md rule R192, log entry 7). -/

namespace Sys2Proof.Machine

/-- A busy engine stays busy for the ticks its command has left and the completion tick, whatever the host does short of a reset. -/
theorem runCycles_busy_iff {s : State} (hw : s.Wf) (hb : s.status.busy = true) (hn : s.NoReset) {k : Nat} (hk : k ≤ s.ticksLeft + 1) :
    ∃ t, runCycles k s = .next t ∧ (t.status.busy = true ↔ k < s.ticksLeft + 1) := by
  have hrun := runCycles_of_measure (P := fun u => u.Wf ∧ u.status.busy = true) (μ := State.ticksLeft)
    (fun u ⟨hu, hub⟩ => hu.step_of_ticksLeft hub) ⟨hw, hb⟩ hn
  obtain hlt | rfl := Nat.lt_or_eq_of_le hk
  · obtain ⟨u, hu, ⟨-, hub⟩, -⟩ := hrun k (Nat.le_of_lt_succ hlt)
    exact ⟨u, hu, iff_of_true hub hlt⟩
  · obtain ⟨u, hu, ⟨huw, hub⟩, hnu, hμ⟩ := hrun s.ticksLeft le_rfl
    have hleft : u.ticksLeft = 0 := Nat.add_eq_right.mp hμ
    obtain ⟨t, ht, hbusy, -⟩ := step_of_completes (huw.completes_of_no_ticks_left hub hleft) hnu.rstN
    exact ⟨t, (runCycles_succ hu).trans ht, iff_of_false (by rw [hbusy]; decide) (Nat.lt_irrefl _)⟩

/-- The state that an accepted command leaves: a rejection does not raise BUSY. -/
theorem accepted_of_exec {i : Instr} {s sb : State} (hb : s.status.busy = false) (h : exec i s = .next sb) (hsb : sb.status.busy = true) :
    (i = .keygen ∧ sb = acceptCommon Instr.keygen.op (endCipher (latchKeygen s))) ∨ (i = .encrypt ∧ sb = acceptEncrypt s) ∨
      (i = .decrypt ∧ sb = acceptDecrypt s) ∨ (i = .clrkey ∧ sb = acceptClrkey s) := by
  have hrejected {c : ErrCode} {op : BitVec 4} : (reject c op s).status.busy ≠ true := by rw [reject_status, hb]; decide
  cases i with
  | nop => cases h; exact absurd (hb.symm.trans hsb) (by decide)
  | keygen =>
    cases (exec_keygen_of_idle hb).symm.trans h
    by_cases hl : configLegal s = true
    · exact .inl ⟨rfl, acceptKeygen_of_legal hl⟩
    · rw [acceptKeygen_of_illegal hl] at hsb; exact absurd hsb hrejected
  | encrypt =>
    cases (exec_encrypt_of_idle hb).symm.trans h
    by_cases hk : s.status.keyValid = true
    · exact .inr (.inl ⟨rfl, needsKey_of_valid hk _ _⟩)
    · rw [needsKey_of_invalid (Bool.eq_false_iff.mpr hk)] at hsb; exact absurd hsb hrejected
  | decrypt =>
    cases (exec_decrypt_of_idle hb).symm.trans h
    by_cases hk : s.status.keyValid = true
    · exact .inr (.inr (.inl ⟨rfl, needsKey_of_valid hk _ _⟩))
    · rw [needsKey_of_invalid (Bool.eq_false_iff.mpr hk)] at hsb; exact absurd hsb hrejected
  | clrkey =>
    cases (exec_clrkey_of_idle hb).symm.trans h
    exact .inr (.inr (.inr ⟨rfl, rfl⟩))

/-- Settles O35: the acceptance fixes the ticks that are left, and BUSY is 1 until they are used up. -/
theorem commandsTakeTheReferenceTicks : Obligations.CommandsTakeTheReferenceTicks := by
  intro s u p rest i k hw hn hs hp hf hstep hu r ticks hk
  obtain ⟨sb, hsb, hacc⟩ := step_of_command hs (hn p (by rw [hs]; exact List.mem_cons_self)) hp
  have hbusy := runCycles_busy_iff (hw.of_step hstep) hu (hn.of_step hstep) (k := k)
  cases hacc.symm.trans hstep
  simp only [tick_idle sb hf] at hu hbusy ⊢
  suffices hticks : ticks = sb.ticksLeft + 1 by
    rw [hticks] at hk ⊢
    exact hbusy hk
  obtain ⟨rfl, rfl⟩ | ⟨rfl, rfl⟩ | ⟨rfl, rfl⟩ | ⟨rfl, rfl⟩ := accepted_of_exec (hw.not_busy_of_idle hf) hsb hu
  all_goals rfl

end Sys2Proof.Machine
end

section
/-! Proof that the host macros write their registers (spec/30_encoding.md rule R89), and the lemmas it needs. -/

namespace Sys2Proof.Machine

/-! ### One write of the host assembly (rule R88) -/

theorem writeReg_build (s : State) (v : Word) (r : Reg) : (writeReg s v r).build = s.build := by cases r <;> rfl

/-- A cycle that writes a register other than CMD leaves the input registers as the write does, whatever runs. -/
theorem step_of_wrPins {s : State} {r : RegName} {v : Word} {reg : Reg} {rest : List Pins} (hs : s.script = wrPins r v :: rest)
    (hreg : decodeAddr s.build r.addr = reg) (hcmd : reg ≠ .cmd) :
    ∃ t, step s = .next t ∧ t.script = rest ∧ t.build = s.build ∧ t.keylen = (writeReg s v reg).keylen ∧
      t.din = (writeReg s v reg).din ∧ t.key = (writeReg s v reg).key := by
  obtain ⟨hbuild, -, -, hkeylen, hdin, hkey, -⟩ := tick_frame s (writeReg s v reg)
  have hstep := step_cons hs rfl (busEffects_write_of_decodeAddr hreg hcmd v)
  exact ⟨_, hstep, rfl, hbuild.trans (writeReg_build s v reg), hkeylen, hdin, hkey⟩

/-- One DIN write of `setblk`. -/
theorem step_of_wrPins_din {s : State} {q : Fin 4} {v : Word} {rest : List Pins} (hs : s.script = wrPins (.din q) v :: rest) :
    ∃ t, step s = .next t ∧ t.script = rest ∧ t.din = s.din.set q v ∧ t.key = s.key := by
  obtain ⟨t, ht, hscript, -, -, hdin, hkey⟩ := step_of_wrPins hs (addr_din q ▸ decodeAddr_din s.build q) (by simp)
  exact ⟨t, ht, hscript, hdin, hkey⟩

/-- `setblk`: the four DIN writes replace the whole block. -/
theorem runCycles_setblk {s : State} {x : Block} (hs : s.script = expandHostOp (.setblk x)) :
    ∃ t, runCycles 4 s = .next t ∧ t.din = x ∧ t.key = s.key ∧ t.script = [] := by
  obtain ⟨t₁, h₁, hs₁, hdin₁, hkey₁⟩ := step_of_wrPins_din hs
  obtain ⟨t₂, h₂, hs₂, hdin₂, hkey₂⟩ := step_of_wrPins_din hs₁
  obtain ⟨t₃, h₃, hs₃, hdin₃, hkey₃⟩ := step_of_wrPins_din hs₂
  obtain ⟨t₄, h₄, hs₄, hdin₄, hkey₄⟩ := step_of_wrPins_din hs₃
  refine ⟨t₄, ?_, ?_, hkey₄.trans (hkey₃.trans (hkey₂.trans hkey₁)), hs₄⟩
  · rw [runCycles_of_step h₁, runCycles_of_step h₂, runCycles_of_step h₃, runCycles_of_step h₄, runCycles]
  · rw [hdin₄, hdin₃, hdin₂, hdin₁]
    rfl

/-- The KEY writes of `setkey` from KEYm on replace the words of KEY from there. -/
theorem runCycles_setKeyPins {ks : List Word} {m : Nat} {s : State} (hb : s.build.wellFormed = true)
    (hlen : s.key.length = s.build.cMax) (hs : s.script = setKeyPins m ks) (hm : m + ks.length ≤ s.build.cMax) :
    ∃ t, runCycles ks.length s = .next t ∧ t.keylen = s.keylen ∧ t.key = s.key.take m ++ ks ++ s.key.drop (m + ks.length) ∧
      t.din = s.din ∧ t.script = [] := by
  induction ks generalizing m s with
  | nil => exact ⟨s, rfl, rfl, by simp, rfl, hs⟩
  | cons k ks ih =>
    rw [List.length_cons] at hm
    obtain ⟨t₁, h₁, hs₁, hbuild₁, hkeylen₁, hdin₁, hkey₁⟩ := step_of_wrPins hs (decodeAddr_addr_key hb (by omega)) (by simp)
    replace hkey₁ : t₁.key = s.key.set m k := hkey₁
    obtain ⟨t, h, hkeylen, hkey, hdin, hscript⟩ :=
      ih (s := t₁) (by rwa [hbuild₁]) (by rw [hkey₁, hbuild₁, List.length_set, hlen]) hs₁ (by rw [hbuild₁]; omega)
    refine ⟨t, (runCycles_of_step h₁ _).trans h, hkeylen.trans hkeylen₁, ?_, hdin.trans hdin₁, hscript⟩
    rw [hkey, hkey₁, take_succ_set k (by omega), drop_set_below k (by omega), List.length_cons,
      List.append_assoc (s.key.take m), List.singleton_append, Nat.add_assoc, Nat.add_comm 1]

/-- A write of STATUS: the W1C of DONE and of the error record, and DONE set by a completion in the same cycle (rule R237). -/
theorem runCycles_status_write {s : State} {v : Word} (hs : s.script = [wrPins .status v]) :
    ∃ t, runCycles 1 s = .next t ∧ t.script = [] ∧ t.status.done = (s.fsm.completes || (s.status.done && !v.getLsbD 1)) ∧
      t.status.err = (s.status.err && !v.getLsbD 2) ∧
      t.status.errCode = (if v.getLsbD 2 then .none else s.status.errCode) ∧
      t.status.errOp = (if v.getLsbD 2 then 0#4 else s.status.errOp) := by
  have hstep := step_cons hs rfl (statusWriteClearsDoneAndErr s v)
  obtain ⟨-, -, -, -, -, -, herr, hcode, herrOp, -⟩ := tick_frame s _
  exact ⟨_, runCycles_of_step hstep 0, rfl, tick_done_eq s _, herr, hcode, herrOp⟩

/-- Settles O55: the macros that write registers by their cycles, `cmd` as a command of the cycle, and the clears by the bits they write. -/
theorem hostMacrosWriteTheirRegisters : Obligations.HostMacrosWriteTheirRegisters := by
  refine ⟨fun s x => runCycles_setblk rfl, fun s len ks hw hks => ?_, fun s i => ?_, fun s => ?_, fun s => ?_, fun s => ?_⟩
  · obtain ⟨-, -, -, -, -, -, hreg⟩ := decodeAddr_control s.build
    obtain ⟨t₁, h₁, hs₁, hbuild₁, hkeylen₁, hdin₁, hkey₁⟩ :=
      step_of_wrPins (s := { s with script := expandHostOp (.setkey len ks) }) rfl hreg (by decide)
    replace hkey₁ : t₁.key = s.key := hkey₁
    have hfit : 0 + ks.length ≤ s.build.cMax := by rw [Nat.zero_add]; exact of_decide_eq_true hks
    obtain ⟨t, h, hkeylen, hkey, hdin, hscript⟩ := runCycles_setKeyPins (hbuild₁ ▸ hw.build)
      (by rw [hkey₁, hbuild₁]; exact hw.keyLen) hs₁ (by rw [hbuild₁]; exact hfit)
    rw [hkey₁, List.take_zero, List.nil_append, Nat.zero_add] at hkey
    exact ⟨t, (runCycles_of_step h₁ _).trans h, hkeylen.trans hkeylen₁, hkey, hdin.trans hdin₁, hscript⟩
  · obtain ⟨sb, hsb, hstep⟩ := step_of_command (s := { s with script := expandHostOp (.cmd i) }) rfl rfl
      ⟨RegName.cmd.addr, encode i, rfl, rfl, decode_encode i⟩
    exact ⟨sb, hsb, runCycles_of_step hstep 0⟩
  · simpa using runCycles_status_write (s := { s with script := expandHostOp .clrdone }) rfl
  · simpa [Bool.or_comm] using runCycles_status_write (s := { s with script := expandHostOp .clrerr }) rfl
  · simpa using runCycles_status_write (s := { s with script := expandHostOp .clrall }) rfl

end Sys2Proof.Machine
end

section
/-! What the accesses of two cycles with the same pins do to two states, said once: the two proofs of what the host does not see use it. -/

namespace Sys2Proof.Machine

/-- A check that reads STATUS.BUSY alone, of two states with one STATUS. -/
theorem unlessBusy_rel {R : State → State → Prop} {f : State → State} {s s' : State} (op : BitVec 4) (hst : s.status = s'.status)
    (hreject : R (reject .busy op s) (reject .busy op s')) (hf : s.status.busy = false → R (f s) (f s')) :
    R (unlessBusy op f s) (unlessBusy op f s') := by
  unfold unlessBusy
  rw [← hst]
  split
  · exact hreject
  · next hb => exact hf (Bool.eq_false_iff.2 hb)

/-- A check that reads STATUS.KEY_VALID alone, of two states with one STATUS. -/
theorem needsKey_rel {R : State → State → Prop} {f : State → State} {s s' : State} (op : BitVec 4) (hst : s.status = s'.status)
    (hreject : R (reject .noKey op s) (reject .noKey op s')) (hf : R (f s) (f s')) :
    R (needsKey op f s) (needsKey op f s') := by
  unfold needsKey
  rw [← hst]
  split
  · exact hf
  · exact hreject

/-- R relates two states that a command's checks cannot tell apart, and the register writes, the rejections and the acceptances keep it. -/
structure KeptByAccess (R : State → State → Prop) (s s' : State) : Prop where
  build : s.build = s'.build
  status : s.status = s'.status
  legal : configLegal s = configLegal s'
  same : R s s'
  write : ∀ v r, R (writeReg s v r) (writeReg s' v r)
  reject : ∀ c op, R (reject c op s) (reject c op s')
  keygen : R (acceptCommon Instr.keygen.op (endCipher (latchKeygen s))) (acceptCommon Instr.keygen.op (endCipher (latchKeygen s')))
  encrypt : R (acceptEncrypt s) (acceptEncrypt s')
  decrypt : R (acceptDecrypt s) (acceptDecrypt s')
  clrkey : R (acceptClrkey s) (acceptClrkey s')

section
variable {R : State → State → Prop} {s s' sb sb' : State}

/-- The same command to two states takes the same outcome of its checks. -/
theorem KeptByAccess.exec {i : Instr} (hR : KeptByAccess R s s') (h : exec i s = .next sb) (h' : exec i s' = .next sb') : R sb sb' := by
  cases i with
  | nop => cases h; cases h'; exact hR.same
  | keygen =>
    cases h; cases h'
    refine unlessBusy_rel _ hR.status (hR.reject _ _) fun _ => ?_
    unfold acceptKeygen
    rw [← hR.legal]
    split
    · exact hR.keygen
    · exact hR.reject _ _
  | encrypt =>
    cases h; cases h'
    exact unlessBusy_rel _ hR.status (hR.reject _ _) fun _ => needsKey_rel _ hR.status (hR.reject _ _) hR.encrypt
  | decrypt =>
    cases h; cases h'
    exact unlessBusy_rel _ hR.status (hR.reject _ _) fun _ => needsKey_rel _ hR.status (hR.reject _ _) hR.decrypt
  | clrkey => cases h; cases h'; exact unlessBusy_rel _ hR.status (hR.reject _ _) fun _ => hR.clrkey

/-- The same access to two states. -/
theorem KeptByAccess.busEffects {a : Access} (hR : KeptByAccess R s s') (h : busEffects s a = .next sb)
    (h' : busEffects s' a = .next sb') : R sb sb' := by
  cases a with
  | idle | read => cases h; cases h'; exact hR.same
  | write a v =>
    by_cases hr : decodeAddr s.build a = .cmd
    · simp only [Machine.busEffects, hr, ← hR.build, commandWrite] at h h'
      cases hd : decode v with
      | ok i =>
        simp only [hd] at h h'
        exact hR.exec h h'
      | error e =>
        simp only [hd] at h h'
        cases h; cases h'
        exact hR.reject _ _
    · rw [busEffects_write_of_decodeAddr rfl hr] at h
      rw [busEffects_write_of_decodeAddr (by rw [← hR.build]) hr] at h'
      cases h; cases h'
      exact hR.write v _

end

/-- The value on the read bus is a function of the readable registers. -/
theorem cycleRdata_congr {s s' : State} (hbuild : s.build = s'.build) (hst : s.status = s'.status) (hirq : s.irqEn = s'.irqEn)
    (hcfg : s.cfg = s'.cfg) (hkeylen : s.keylen = s'.keylen) (hdin : s.din = s'.din) (hdout : s.dout = s'.dout) (p : Pins) :
    cycleRdata s p = cycleRdata s' p := by
  have hread (r : Reg) : readReg s r = readReg s' r := by
    cases r <;> simp only [readReg, hbuild, hst, hirq, hcfg, hkeylen, hdin, hdout]
  simp only [cycleRdata, busRead, hread, hbuild]

end Sys2Proof.Machine
end

section
/-! Proof that key material and working data reach the host only through DOUT (spec/10_state.md rule R48, spec/60_exceptions.md rule
R216). -/

namespace Sys2Proof.Machine

/-- Two states differ in the secrets alone if the second is the first with the secrets of the second. -/
theorem State.SameButSecrets.of_eq {s t : State} (hkey : t.key.length = s.key.length) (hS : t.S.length = s.S.length)
    (hL : t.L.length = s.L.length)
    (h : t = { s with key := t.key, S := t.S, L := t.L, WA := t.WA, WB := t.WB, WC := t.WC, WD := t.WD, KA := t.KA, KB := t.KB }) :
    s.SameButSecrets t :=
  ⟨t.key, t.S, t.L, t.WA, t.WB, t.WC, t.WD, t.KA, t.KB, hkey, hS, hL, h⟩

theorem State.SameButSecrets.refl (s : State) : s.SameButSecrets s := .of_eq rfl rfl rfl rfl

theorem State.SameButSecrets.withBus {s t : State} (h : s.SameButSecrets t) (script : List Pins) (rdata : Word) :
    ({ s with script := script, rdata := rdata } : State).SameButSecrets { t with script := script, rdata := rdata } := by
  obtain ⟨key, S, L, a, b, c, d, ka, kb, hkey, hS, hL, rfl⟩ := h
  exact .of_eq hkey hS hL rfl

theorem State.SameButSecrets.writeReg {s s' : State} (h : s.SameButSecrets s') (v : Word) (r : Reg) :
    (Machine.writeReg s v r).SameButSecrets (Machine.writeReg s' v r) := by
  obtain ⟨key, S, L, a, b, c, d, ka, kb, hkey, hS, hL, rfl⟩ := h
  cases r with
  | key k => exact .of_eq (by simpa [Machine.writeReg] using hkey) hS hL rfl
  | _ => exact .of_eq hkey hS hL rfl

/-- The accesses read no secret, and write KEY and L to their lengths. -/
theorem State.SameButSecrets.keptByAccess {s s' : State} (h : s.SameButSecrets s') : KeptByAccess State.SameButSecrets s s' := by
  have hwrite := h.writeReg
  obtain ⟨key, S, L, a, b, c, d, ka, kb, hkey, hS, hL, rfl⟩ := h
  exact {
    build := rfl
    status := rfl
    legal := rfl
    same := .of_eq hkey hS hL rfl
    write := hwrite
    reject := fun _ _ => .of_eq hkey hS hL rfl
    keygen := .of_eq hkey hS (by simp) rfl
    encrypt := .of_eq hkey hS hL rfl
    decrypt := .of_eq hkey hS hL rfl
    clrkey := .of_eq rfl hS hL rfl }

/-- The tick is steered by no secret: from states that differ in the secrets it leaves states that differ in them and in DOUT. -/
theorem State.SameButSecrets.tick {s s' t t' : State} (hs : s.SameButSecrets s') (ht : t.SameButSecrets t') :
    (tick s t).SameButSecrets { tick s' t' with dout := (tick s t).dout } := by
  obtain ⟨key, S, L, a, b, c, d, ka, kb, hkey, hS, hL, rfl⟩ := hs
  obtain ⟨key', S', L', a', b', c', d', ka', kb', hkey', hS', hL', rfl⟩ := ht
  cases hf : s.fsm with
  | kgP1 =>
    simp only [Machine.tick, hf, tickKgP1]
    split <;> exact .of_eq hkey' (by simpa using hS') hL' rfl
  | ckClr =>
    simp only [Machine.tick, hf, tickCkClr]
    split <;> exact .of_eq hkey' (by simpa using hS') hL' rfl
  | kgP2 =>
    simp only [Machine.tick, hf, tickKgP2]
    exact .of_eq hkey' (by simpa using hS') (by simpa using hL') rfl
  | kgFin | ckFin =>
    simp only [Machine.tick, hf]
    exact .of_eq hkey' hS' (by simp [tickKgFin, tickCkFin]) rfl
  | _ =>
    simp only [Machine.tick, hf]
    exact .of_eq hkey' hS' hL' rfl

/-- What the host sees of two states that differ in the secrets and in DOUT. -/
theorem State.SameButSecrets.rdata_irq {t t' : State} {x : Block} (h : t.SameButSecrets { t' with dout := x }) :
    t.rdata = t'.rdata ∧ irq t = irq t' := by
  obtain ⟨_, _, _, _, _, _, _, _, _, -, -, -, heq⟩ := h
  have hrdata := congrArg State.rdata heq
  have hirq := congrArg irq heq
  exact ⟨hrdata.symm, hirq.symm⟩

/-- A cycle outside reset from two states that differ in the secrets. -/
theorem State.SameButSecrets.commit {s s' sb sb' : State} (hs : s.SameButSecrets s') (hsb : sb.SameButSecrets sb') :
    (commit s sb).SameButSecrets { commit s' sb' with dout := (commit s sb).dout } := by
  have htick := (hs.tick hsb).withBus s.script.tail (cycleRdata s (nextPins s))
  have hbus : cycleRdata s' (nextPins s') = cycleRdata s (nextPins s) ∧ s'.script = s.script := by
    obtain ⟨_, _, _, _, _, _, _, _, _, -, -, -, rfl⟩ := hs
    exact ⟨cycleRdata_congr rfl rfl rfl rfl rfl rfl rfl _, rfl⟩
  obtain ⟨hrdata, hscript⟩ := hbus
  simp only [Machine.commit, hrdata, hscript]
  exact htick

/-- A reset cycle from two states that differ in the secrets leaves one state. -/
theorem State.SameButSecrets.resetCycle_eq {s s' : State} (hs : s.SameButSecrets s') :
    nextPins s' = nextPins s ∧ resetCycle s' s'.script.tail = resetCycle s s.script.tail := by
  obtain ⟨_, _, _, _, _, _, _, _, _, -, -, -, rfl⟩ := hs
  exact ⟨rfl, rfl⟩

/-- A tick that completes no transform leaves DOUT the same in two states in which it is the same. -/
theorem State.SameButSecrets.tick_dout_eq {s s' sb sb' : State} (hs : s.SameButSecrets s') (hsb : sb.SameButSecrets sb')
    (hfin : ¬(s.fsm = .enFin ∨ s.fsm = .deFin)) : (Machine.tick s' sb').dout = (Machine.tick s sb).dout := by
  obtain ⟨he, hd⟩ := not_or.mp hfin
  obtain ⟨_, _, _, _, _, _, _, _, _, -, -, -, rfl⟩ := hs
  obtain ⟨_, _, _, _, _, _, _, _, _, -, -, -, rfl⟩ := hsb
  rw [tick_dout sb he hd]
  exact tick_dout _ he hd

/-- Settles O52: the access and the tick keep the two states the same but for the secrets and DOUT, and every tick but the completion of a
transform leaves DOUT too. -/
theorem keyMaterialReachesTheHostOnlyThroughOutput : Obligations.KeyMaterialReachesTheHostOnlyThroughOutput := by
  intro s s' t t' hs ht ht'
  obtain ⟨hpins, hreset⟩ := hs.resetCycle_eq
  cases hr : (nextPins s).rstN with
  | false =>
    cases (step_of_reset hr).symm.trans ht
    cases (step_of_reset (hpins ▸ hr)).symm.trans ht'
    rw [hreset]
    exact ⟨rfl, rfl, by split <;> exact .refl _⟩
  | true =>
    obtain ⟨sb, hsb⟩ := busEffects_isNext s (nextPins s).access
    obtain ⟨sb', hsb'⟩ := busEffects_isNext s' (nextPins s).access
    cases (step_of_effects hr hsb).symm.trans ht
    cases (step_of_effects (hpins ▸ hr) (hpins ▸ hsb')).symm.trans ht'
    have hsame := hs.keptByAccess.busEffects hsb hsb'
    have hcommit := hs.commit hsame
    obtain ⟨hrdata, hirq⟩ := hcommit.rdata_irq
    refine ⟨hrdata, hirq, ?_⟩
    split
    · exact hcommit
    · next hfin =>
      have hdout : (commit s sb).dout = (commit s' sb').dout :=
        (hs.tick_dout_eq hsame fun h => hfin ⟨h, rfl⟩).symm
      rw [hdout] at hcommit
      exact hcommit

end Sys2Proof.Machine
end

section
/-! Proof that the unspecified reset values are never seen (spec/10_state.md rule R44, rule R45): two states that agree on every value some
rule still reads before it writes it go on to agree on them. -/

namespace Sys2Proof.Machine

/-! ### The values that are live (rule R45) -/

/-- What a running KEYGEN has latched, its scratch state and its cursors. -/
structure KeygenWork where
  L : List Word
  KA : Word
  KB : Word
  SI : Nat
  LJ : Nat
  KN : Nat
  RL : BitVec 8
  CL : Nat
  NL : Nat
  VL : Nat

def State.keygenWork (s : State) : KeygenWork := ⟨s.L, s.KA, s.KB, s.SI, s.LJ, s.KN, s.RL, s.CL, s.NL, s.VL⟩

/-- The two states agree on what the running command has written already and reads again; of S, on the entries it has computed. -/
def State.SameWork (s t : State) : Prop :=
  match s.fsm with
  | .kgP1 => s.keygenWork = t.keygenWork ∧ s.S.take s.SI = t.S.take s.SI
  | .kgP2 | .kgFin => s.keygenWork = t.keygenWork ∧ s.S.take s.NL = t.S.take s.NL
  | .enRnd | .deRnd => s.working = t.working ∧ s.RI = t.RI
  | .enPre | .enFin | .dePre | .deFin => s.working = t.working
  | .ckClr => s.SI = t.SI
  | .idle | .ckFin => True

/-- The two states agree on all but the internal values that no rule reads before it writes them. -/
structure State.SameLive (s t : State) : Prop where
  registers : s.SameRegisters t
  fsm : s.fsm = t.fsm
  script : s.script = t.script
  draws : s.draws = t.draws
  work : s.SameWork t
  table : s.status.keyValid = true →
    s.S.take (roundKeyCount (schedRounds s)) = t.S.take (roundKeyCount (schedRounds s))

/-- Right after reset no internal value is live, so the unspecified ones do not matter. -/
theorem sameLive_afterReset (b : Build) (u u' : Unspecified) (script : List Pins) (n : Nat) :
    (State.afterReset b u script n).SameLive (State.afterReset b u' script n) where
  registers := by constructor <;> rfl
  fsm := rfl
  script := rfl
  draws := rfl
  work := trivial
  table := nofun

section
variable {s t : State}

theorem State.SameLive.configLegal_eq (h : s.SameLive t) : configLegal s = configLegal t := by
  rw [Bool.eq_iff_iff, configLegal_iff, configLegal_iff, h.registers.build, h.registers.cfg, h.registers.keylen]

/-- A write to a register changes no value that is live. -/
theorem State.SameLive.writeReg (h : s.SameLive t) (v : Word) (r : Reg) :
    (Machine.writeReg s v r).SameLive (Machine.writeReg t v r) := by
  have hregs := h.registers
  cases r with
  | status =>
    simp only [Machine.writeReg, Status.w1c_eq, ← hregs.status]
    exact { h with registers := { hregs with status := rfl } }
  | irqEn => exact { h with registers := { hregs with irqEn := rfl } }
  | cfg => exact { h with registers := { hregs with cfg := rfl } }
  | keylen => exact { h with registers := { hregs with keylen := rfl } }
  | din q => exact { h with registers := { hregs with din := congrArg (Block.set · q v) hregs.din } }
  | key k => exact { h with registers := { hregs with key := congrArg (List.set · k v) hregs.key } }
  | _ => exact h

/-- An acceptance latches registers alone, so what it makes live is the same in both states. -/
theorem State.SameLive.keptByAccess (h : s.SameLive t) : KeptByAccess State.SameLive s t := by
  have hregs := h.registers
  have hst (f : Status → Status) : f s.status = f t.status := congrArg f hregs.status
  have hworking : (latchBlock s).working = (latchBlock t).working := by
    simp only [State.working, latchBlock, hregs.din]
  have hkeygen : (latchKeygen s).keygenWork = (latchKeygen t).keygenWork := by
    simp only [State.keygenWork, latchKeygen, cfgRounds, keyLength, hregs.build, hregs.cfg, hregs.keylen, hregs.key]
  exact {
    build := hregs.build
    status := hregs.status
    legal := h.configLegal_eq
    same := h
    write := h.writeReg
    reject := fun c o => { h with
      registers := { hregs with status := hst fun st => { st with err := true, errCode := c, errOp := o } } }
    keygen := { h with
      registers := { hregs with
        status := hst fun st => { st with keyValid := false, schedR := 0, busy := true, done := false, activeOp := Instr.keygen.op } }
      fsm := rfl
      work := ⟨hkeygen, rfl⟩
      table := nofun }
    encrypt := { h with
      registers := { hregs with status := hst fun st => { st with busy := true, done := false, activeOp := Instr.encrypt.op } }
      fsm := rfl
      work := hworking }
    decrypt := { h with
      registers := { hregs with status := hst fun st => { st with busy := true, done := false, activeOp := Instr.decrypt.op } }
      fsm := rfl
      work := hworking }
    clrkey := { h with
      registers := { hregs with
        status := hst fun st => { st with keyValid := false, schedR := 0, busy := true, done := false, activeOp := Instr.clrkey.op }
        key := congrArg (fun b : Build => List.replicate b.cMax 0) hregs.build }
      fsm := rfl
      work := rfl
      table := nofun } }

/-! ### The ticks of KEYGEN -/

theorem State.Wf.SI_lt_length (hw : s.Wf) (hf : s.fsm = .kgP1 ∨ s.fsm = .kgP2) : s.SI < s.S.length := by
  obtain ⟨-, -, hRL, -, -, hNL, -⟩ := hw.keygen (by obtain hf | hf := hf <;> rw [hf] <;> rfl)
  have hSI := hw.SI_lt_NL hf
  rw [hw.sLen, Build.sLen]
  rw [hNL, roundKeyCount] at hSI
  omega

/-- No key is valid while a KEYGEN or a CLRKEY runs. -/
theorem State.Wf.not_keyValid (hw : s.Wf) (hop : s.fsm.op = Instr.keygen.op ∨ s.fsm.op = Instr.clrkey.op) :
    ¬s.status.keyValid = true :=
  Bool.eq_false_iff.mp (hop.elim (fun h => (hw.keygen h).1) hw.clrkey)

theorem State.SameLive.tick_kgP1 (hs : s.Wf) (ht : t.Wf) (h : s.SameLive t) (hf : s.fsm = .kgP1) :
    (tick s s).SameLive (tick t t) := by
  have hf' : t.fsm = .kgP1 := h.fsm ▸ hf
  have hwork := h.work
  simp only [SameWork, hf] at hwork
  obtain ⟨hk, hS⟩ := hwork
  have hnokey := hs.not_keyValid (.inl (by rw [hf]; rfl))
  have hSI : s.SI = t.SI := congrArg KeygenWork.SI hk
  have hNL : s.NL = t.NL := congrArg KeygenWork.NL hk
  have hS' : (s.S.set s.SI (rom s.SI)).take (s.SI + 1) = (t.S.set t.SI (rom t.SI)).take (s.SI + 1) := by
    rw [take_succ_set _ (hs.SI_lt_length (.inl hf)), hS, hSI, take_succ_set _ (ht.SI_lt_length (.inl hf'))]
  rw [Machine.tick_kgP1 hf, Machine.tick_kgP1 hf']
  by_cases hlast : s.SI = s.NL - 1
  · have hlast' : t.SI = t.NL - 1 := hNL ▸ hSI ▸ hlast
    have hn : s.SI + 1 = s.NL := by
      have := hs.SI_lt_NL (.inl hf)
      omega
    rw [hn] at hS'
    simp only [if_pos hlast, if_pos hlast']
    exact { h with
      registers := { h.registers with }
      fsm := rfl
      work := ⟨congrArg (fun k => { k with SI := 0 }) hk, hS'⟩
      table := fun hv => absurd hv hnokey }
  · have hlast' : ¬t.SI = t.NL - 1 := hNL ▸ hSI ▸ hlast
    simp only [if_neg hlast, if_neg hlast']
    exact { h with
      registers := { h.registers with }
      fsm := rfl
      work := ⟨congrArg (fun k => { k with SI := k.SI + 1 }) hk, hS'⟩
      table := fun hv => absurd hv hnokey }

theorem State.SameLive.tick_kgP2 (hs : s.Wf) (h : s.SameLive t) (hf : s.fsm = .kgP2) : (tick s s).SameLive (tick t t) := by
  have hf' : t.fsm = .kgP2 := h.fsm ▸ hf
  have hwork := h.work
  simp only [SameWork, hf] at hwork
  obtain ⟨hk, hS⟩ := hwork
  have hnokey := hs.not_keyValid (.inl (by rw [hf]; rfl))
  simp only [keygenWork, KeygenWork.mk.injEq] at hk
  obtain ⟨hL, hKA, hKB, hSI, hLJ, hKN, hRL, hCL, hNL, hVL⟩ := hk
  have hword : wordAt t.S s.SI = wordAt s.S s.SI := (wordAt_congr_take hS (hs.SI_lt_NL (.inr hf))).symm
  have hk' : (tickKgP2 s s).keygenWork = (tickKgP2 t t).keygenWork := by
    simp only [keygenWork, tickKgP2, ← hL, ← hKA, ← hKB, ← hSI, ← hLJ, ← hKN, ← hRL, ← hCL, ← hNL, ← hVL, hword]
  have hS' : (tickKgP2 s s).S.take s.NL = (tickKgP2 t t).S.take s.NL := by
    simp only [tickKgP2, ← hKA, ← hKB, ← hSI, hword, take_set_eq, hS]
  have hfsm : (tickKgP2 s s).fsm = (tickKgP2 t t).fsm := by simp only [tickKgP2, ← hKN, ← hVL]
  have hwork' : (tickKgP2 s s).SameWork (tickKgP2 t t) := by
    by_cases hlast : s.KN = s.VL - 1
    · have hfin : (tickKgP2 s s).fsm = .kgFin := if_pos hlast
      simp only [SameWork, hfin]
      exact ⟨hk', hS'⟩
    · have hnext : (tickKgP2 s s).fsm = .kgP2 := if_neg hlast
      simp only [SameWork, hnext]
      exact ⟨hk', hS'⟩
  rw [Machine.tick_kgP2 hf, Machine.tick_kgP2 hf']
  exact { h with
    registers := { h.registers with }
    fsm := hfsm
    work := hwork'
    table := fun hv => absurd hv hnokey }

theorem State.SameLive.tick_kgFin (hs : s.Wf) (h : s.SameLive t) (hf : s.fsm = .kgFin) : (tick s s).SameLive (tick t t) := by
  have hf' : t.fsm = .kgFin := h.fsm ▸ hf
  have hwork := h.work
  simp only [SameWork, hf] at hwork
  obtain ⟨hk, hS⟩ := hwork
  obtain ⟨-, -, -, -, -, hNL, -⟩ := hs.keygen (by rw [hf]; rfl)
  rw [Machine.tick_kgFin hf, Machine.tick_kgFin hf']
  exact { h with
    registers := { h.registers with status := by simp [tickKgFin, h.registers.status, show s.RL = t.RL from congrArg KeygenWork.RL hk] }
    fsm := rfl
    work := trivial
    table := fun _ => hNL ▸ hS }

/-! ### The ticks of ENCRYPT, DECRYPT and CLRKEY -/

theorem sameWork_of_transform (hop : s.fsm.op = Instr.encrypt.op ∨ s.fsm.op = Instr.decrypt.op) (hw : s.working = t.working)
    (hRI : s.RI = t.RI) : s.SameWork t := by
  unfold State.SameWork
  cases hf : s.fsm with
  | enRnd | deRnd => exact ⟨hw, hRI⟩
  | enPre | enFin | dePre | deFin => exact hw
  | idle | kgP1 | kgP2 | kgFin | ckClr | ckFin => rw [hf] at hop; exact absurd hop (by decide)

/-- The ticks of a transform read S[0..2r+3] and the working registers, and of two tables that agree there they make the same. -/
theorem State.SameLive.tick_transform (hs : s.Wf) (h : s.SameLive t)
    (hop : s.fsm.op = Instr.encrypt.op ∨ s.fsm.op = Instr.decrypt.op) : (tick s s).SameLive (tick t t) := by
  have hregs := h.registers
  have htable := h.table (hop.elim hs.encrypt hs.decrypt)
  have hsched : schedRounds t = schedRounds s := congrArg (·.schedR.toNat) hregs.status.symm
  have hdone := congrArg (fun st : Status => { st with busy := false, done := true }) hregs.status
  have hf' {f : Fsm} (hf : s.fsm = f) : t.fsm = f := h.fsm ▸ hf
  have hwork := h.work
  unfold SameWork at hwork
  cases hf : s.fsm with
  | enPre =>
    simp only [hf] at hwork
    rw [tick_enPre hf, tick_enPre (hf' hf)]
    exact { h with
      registers := { hregs with }
      fsm := rfl
      work := ⟨(encPre_congr htable _).trans (congrArg (encPre t.S) hwork), rfl⟩ }
  | enRnd =>
    simp only [hf] at hwork
    obtain ⟨hwork, hRI⟩ := hwork
    obtain ⟨-, hmax⟩ := hs.enRnd hf
    have hround : (tickEnRnd s s).working = (tickEnRnd t t).working :=
      calc encRound s.S s.RI s.working = encRound t.S s.RI s.working := encRound_congr htable hmax _
        _ = encRound t.S t.RI t.working := by rw [hwork, hRI]
    rw [tick_enRnd hf, tick_enRnd (hf' hf)]
    exact { h with
      registers := { hregs with }
      fsm := by simp only [tickEnRnd, hRI, hsched]
      work := sameWork_of_transform (.inl (by simp only [tickEnRnd]; split <;> rfl)) hround (congrArg (· + 1) hRI) }
  | enFin =>
    simp only [hf] at hwork
    rw [tick_enFin hf, tick_enFin (hf' hf)]
    have hpost : encPost s.S (schedRounds s) s.working = encPost t.S (schedRounds t) t.working := by
      rw [encPost_congr htable, hwork, hsched]
    exact { h with
      registers := { hregs with status := hdone, dout := hpost }
      fsm := rfl
      work := trivial }
  | dePre =>
    simp only [hf] at hwork
    rw [tick_dePre hf, tick_dePre (hf' hf)]
    have hpre : decPre s.S (schedRounds s) s.working = decPre t.S (schedRounds t) t.working := by
      rw [decPre_congr htable, hwork, hsched]
    exact { h with
      registers := { hregs with }
      fsm := rfl
      work := ⟨hpre, hsched.symm⟩ }
  | deRnd =>
    simp only [hf] at hwork
    obtain ⟨hwork, hRI⟩ := hwork
    obtain ⟨-, hmax⟩ := hs.deRnd hf
    have hround : (tickDeRnd s s).working = (tickDeRnd t t).working :=
      calc decRound s.S s.RI s.working = decRound t.S s.RI s.working := decRound_congr htable hmax _
        _ = decRound t.S t.RI t.working := by rw [hwork, hRI]
    rw [tick_deRnd hf, tick_deRnd (hf' hf)]
    exact { h with
      registers := { hregs with }
      fsm := by simp only [tickDeRnd, hRI]
      work := sameWork_of_transform (.inr (by simp only [tickDeRnd]; split <;> rfl)) hround (congrArg (· - 1) hRI) }
  | deFin =>
    simp only [hf] at hwork
    rw [tick_deFin hf, tick_deFin (hf' hf)]
    exact { h with
      registers := { hregs with status := hdone, dout := (decPost_congr htable _).trans (congrArg (decPost t.S) hwork) }
      fsm := rfl
      work := trivial }
  | idle | kgP1 | kgP2 | kgFin | ckClr | ckFin => rw [hf] at hop; exact absurd hop (by decide)

/-- The ticks of CLRKEY read the cursor alone, and without a key no entry of S is live. -/
theorem State.SameLive.tick_clrkey (hs : s.Wf) (h : s.SameLive t) (hop : s.fsm.op = Instr.clrkey.op) : (tick s s).SameLive (tick t t) := by
  have hregs := h.registers
  have hnokey := hs.not_keyValid (.inr hop)
  have hwork := h.work
  obtain hf | hf := (Fsm.op_eq_clrkey_iff s.fsm).1 hop
  · simp only [SameWork, hf] at hwork
    have hcond : (s.SI = 2 * s.build.rMax + 3) = (t.SI = 2 * t.build.rMax + 3) := by rw [hwork, hregs.build]
    rw [tick_ckClr hf, tick_ckClr (h.fsm ▸ hf)]
    by_cases hlast : s.SI = 2 * s.build.rMax + 3
    · simp only [if_pos hlast, if_pos (hcond ▸ hlast)]
      exact { h with
        registers := { hregs with }
        fsm := rfl
        work := trivial
        table := fun hv => absurd hv hnokey }
    · simp only [if_neg hlast, if_neg (hcond ▸ hlast)]
      exact { h with
        registers := { hregs with }
        fsm := rfl
        work := congrArg (· + 1) hwork
        table := fun hv => absurd hv hnokey }
  · rw [tick_ckFin hf, tick_ckFin (h.fsm ▸ hf)]
    exact { h with
      registers := { hregs with status := congrArg (fun st : Status => { st with busy := false, done := true }) hregs.status }
      fsm := rfl
      work := trivial
      table := fun hv => absurd hv hnokey }

/-! ### The cycle and the run -/

theorem State.SameLive.tick_self (hs : s.Wf) (ht : t.Wf) (h : s.SameLive t) : (tick s s).SameLive (tick t t) := by
  cases hf : s.fsm with
  | idle => rw [tick_idle s hf, tick_idle t (h.fsm ▸ hf)]; exact h
  | kgP1 => exact h.tick_kgP1 hs ht hf
  | kgP2 => exact h.tick_kgP2 hs hf
  | kgFin => exact h.tick_kgFin hs hf
  | enPre | enRnd | enFin => exact h.tick_transform hs (.inl (by rw [hf]; rfl))
  | dePre | deRnd | deFin => exact h.tick_transform hs (.inr (by rw [hf]; rfl))
  | ckClr | ckFin => exact h.tick_clrkey hs (by rw [hf]; rfl)

/-- The bus effects and the tick of a cycle with the same access. -/
theorem State.SameLive.tick_of_effects {sb tb : State} (hs : s.Wf) (ht : t.Wf) (h : s.SameLive t) (hb : BusEffect s sb)
    (hb' : BusEffect t tb) (hsb : sb.SameLive tb) : (tick s sb).SameLive (tick t tb) := by
  by_cases hbusy : s.status.busy = true
  · rw [tick_of_busyShape (hb.of_busy hbusy), tick_of_busyShape (hb'.of_busy (h.registers.status ▸ hbusy))]
    exact hsb.tick_self (hb.wf hs) (hb'.wf ht)
  · have hf := hs.idle_of_not_busy hbusy
    rw [tick_idle sb hf, tick_idle tb (h.fsm ▸ hf)]
    exact hsb

theorem State.SameLive.withBus (h : s.SameLive t) (script : List Pins) (rdata : Word) :
    ({ s with script := script, rdata := rdata } : State).SameLive { t with script := script, rdata := rdata } :=
  { h with registers := { h.registers with rdata := rfl }, script := rfl }

/-- A cycle of each state: a reset draws the same values in both, and otherwise both take the same access. -/
theorem State.SameLive.step {s' t' : State} (hs : s.Wf) (ht : t.Wf) (h : s.SameLive t) (hstep : step s = .next s')
    (hstep' : step t = .next t') : s'.SameLive t' := by
  have hregs := h.registers
  have hpins : nextPins t = nextPins s := by simp only [nextPins, h.script]
  cases hr : (nextPins s).rstN with
  | false =>
    cases (step_of_reset hr).symm.trans hstep
    cases (step_of_reset (hpins ▸ hr)).symm.trans hstep'
    rw [resetCycle, resetCycle, hregs.build, h.draws, h.script]
    exact sameLive_afterReset _ _ _ _ _
  | true =>
    obtain ⟨sb, hsb⟩ := busEffects_isNext s (nextPins s).access
    obtain ⟨tb, htb⟩ := busEffects_isNext t (nextPins s).access
    cases (step_of_effects hr hsb).symm.trans hstep
    cases (step_of_effects (hpins ▸ hr) (hpins ▸ htb)).symm.trans hstep'
    have hrdata : cycleRdata s (nextPins s) = cycleRdata t (nextPins s) :=
      cycleRdata_congr hregs.build hregs.status hregs.irqEn hregs.cfg hregs.keylen hregs.din hregs.dout _
    rw [commit, commit, hpins, ← h.script, ← hrdata]
    exact (h.tick_of_effects hs ht (busEffects_effect hsb) (busEffects_effect htb) (h.keptByAccess.busEffects hsb htb)).withBus _ _

theorem State.SameLive.runCycles (k : Nat) (hs : s.Wf) (ht : t.Wf) (h : s.SameLive t) :
    ∃ s' t', runCycles k s = .next s' ∧ runCycles k t = .next t' ∧ s'.SameLive t' := by
  induction k generalizing s t with
  | zero => exact ⟨s, t, rfl, rfl, h⟩
  | succ k ih =>
    obtain ⟨s₁, hs₁⟩ := step_isNext s
    obtain ⟨t₁, ht₁⟩ := step_isNext t
    rw [runCycles_of_step hs₁, runCycles_of_step ht₁]
    exact ih (hs.of_step hs₁) (ht.of_step ht₁) (h.step hs ht hs₁ ht₁)

end

/-- Settles O53: right after reset no unspecified value is live, and every cycle keeps the two states the same on what is live, the
registers among it. -/
theorem unspecifiedResetValuesAreNeverSeen : Obligations.UnspecifiedResetValuesAreNeverSeen := by
  intro b u u' script n k hb hS hS' hL hL'
  obtain ⟨t, t', ht, ht', h⟩ := (sameLive_afterReset b u u' script n).runCycles k (wf_afterReset hb u hS hL script n)
    (wf_afterReset hb u' hS' hL' script n)
  exact ⟨t, t', ht, ht', h.registers, h.fsm, by simp only [irq, h.registers.status, h.registers.irqEn]⟩

end Sys2Proof.Machine
end
